-- ==== Sys2Proof/Word.lean ====
section
/-! DEFINITION. The fixed widths of the engine's formats (30_encoding.md R100, R102, R104, R106). Widths only:
the fields inside a word are taken apart in Machine/Operands.lean and Decode.lean. -/

namespace Sys2Proof

/-- One payload byte (R102). -/
abbrev Byte := BitVec 8

/-- A device number, the identifier's low field: 0 is broadcast, 1 to 63 one peer (R100). -/
abbrev DevNo := BitVec 6

/-- A command or message class: the 23 identifier bits above the device number (R103). -/
abbrev Cls := BitVec 23

/-- A 29-bit bus identifier (R100). -/
abbrev Ident := BitVec 29

/-- A payload length tag: 0 to 8 are lengths, 9 to 15 are reserved (R102, R121). -/
abbrev Len := BitVec 4

/-- The eight payload bytes as the spec's `DATA64`: byte `i` stands in bits `8i+7 .. 8i` (R105, R106). -/
abbrev Payload := BitVec 64

/-- The index of a result slot as the event word carries it (R106). -/
abbrev SlotIx := BitVec 2

/-- One event word (R106). -/
abbrev EventWord := BitVec 104

end Sys2Proof
end

