-- ==== Sys2Proof/Syntax.lean ====
section
/-! DEFINITION. The records the engine exchanges and stores (30_encoding.md R102, R104), the reasons a decoder
rejects a word (R124), and the instruction set: one constructor for each row of spec/opcode_table.json. -/

namespace Sys2Proof

/-- Format FRAME (R102): what is exchanged with the bus adapter in both directions. -/
structure Frame where
  id : Ident
  len : Len
  data : Payload
  deriving DecidableEq, Repr, Inhabited

/-- Format QE (R104): one element of the queue ring. `rslot` has a meaning only when `rv` holds. -/
structure QEntry where
  addr : DevNo
  cls : Cls
  len : Len
  data : Payload
  rv : Bool
  rslot : SlotIx
  deriving DecidableEq, Repr, Inhabited

/-- The entry of all zeros: what the ring's elements hold at `State.reset` (assumption 3). -/
def QEntry.blank : QEntry := ⟨0, 0, 0, 0, false, 0⟩

/-- Why a decoder rejects an event word (R124). -/
inductive Reject where
  /-- `OP = 14`. -/
  | opcode14
  /-- A field that the event does not use is not zero. -/
  | unusedField
  /-- ENQ, ENQR or RXF with `LEN <= 8` and a payload byte at a position `>= LEN` that is not zero. -/
  | payloadTail
  deriving DecidableEq, Repr

/-- The instruction set: an "instruction" is one event (R6). The first sixteen constructors are the EVT rows of
the opcode table in the order of `OP` (R107); the other eighteen are its ID29 rows, the second-level decode of a
received frame (R110) and of the frame just sent (R111). -/
inductive Instr where
  /-- TICK, one period of the tick source (R175). -/
  | tick
  /-- TXC, the adapter's transmit-complete (R181). -/
  | txc
  /-- RXF, the adapter delivers one received frame (R200). -/
  | rxf (id : Ident) (len : Len) (data : Payload)
  /-- ENQ, the host enqueues a command (R140). -/
  | enq (cls : Cls) (a : DevNo) (len : Len) (data : Payload)
  /-- ENQR, the host enqueues a command with a result reference (R141). -/
  | enqr (cls : Cls) (a : DevNo) (len : Len) (data : Payload) (r : SlotIx)
  /-- SETADDR, the host sets the target address (R142). -/
  | setaddr (a : DevNo)
  /-- ENUM, the host starts an enumeration round (R143). -/
  | enum
  /-- SWEEP, the host enables or disables the chained status sweep (R144). -/
  | sweep (b : Bool)
  /-- RDSTAT, the host reads one StatusField (R145). -/
  | rdstat (k : BitVec 4)
  /-- RDPRES, the host reads the presence bitmap (R146). -/
  | rdpres
  /-- RDRES, the host reads a result slot (R147). -/
  | rdres (r : SlotIx)
  /-- TAKEUPD, the host consumes the one-shot update-ack flag (R148). -/
  | takeupd
  /-- RDREG, the host reads a control or status register (R149). -/
  | rdreg (n : BitVec 4)
  /-- CLRERR, the host clears sticky error bits (R150). -/
  | clrerr (m : BitVec 6)
  /-- The reserved opcode 14: no event at all (R124). -/
  | reserved14 (rest : BitVec 100)
  /-- RESET (R151). -/
  | reset
  /-- A received VOUT status frame (R110 line 1, k = 0). -/
  | rxfStatusVout (a : DevNo) (len : Len) (data : Payload)
  /-- A received VBUS status frame (k = 1). -/
  | rxfStatusVbus (a : DevNo) (len : Len) (data : Payload)
  /-- A received CURRENT status frame (k = 2). -/
  | rxfStatusCurrent (a : DevNo) (len : Len) (data : Payload)
  /-- A received TEMP status frame (k = 3). -/
  | rxfStatusTemp (a : DevNo) (len : Len) (data : Payload)
  /-- A received POSITION status frame (k = 4). -/
  | rxfStatusPosition (a : DevNo) (len : Len) (data : Payload)
  /-- A received SPEED status frame (k = 5). -/
  | rxfStatusSpeed (a : DevNo) (len : Len) (data : Payload)
  /-- A received LIMIT status frame (k = 6). -/
  | rxfStatusLimit (a : DevNo) (len : Len) (data : Payload)
  /-- A received FAULT status frame (k = 7). -/
  | rxfStatusFault (a : DevNo) (len : Len) (data : Payload)
  /-- A received firmware-version frame (R110 line 2, R206). -/
  | rxfFwver (a : DevNo) (len : Len) (data : Payload)
  /-- A received enumeration reply (R110 line 3, R207). -/
  | rxfEnumReply (a : DevNo) (len : Len) (data : Payload)
  /-- A received generic acknowledgement (R110 line 4, R208). -/
  | rxfAck (a : DevNo) (len : Len) (data : Payload)
  /-- A received bootloader acknowledgement (R110 line 5, R209). -/
  | rxfUpdack (a : DevNo) (len : Len) (data : Payload)
  /-- A received frame of any other class (R110 line 6, R210). -/
  | rxfOther (cls : Cls) (a : DevNo) (len : Len) (data : Payload)
  /-- The frame just sent is an enumeration request (R111 line 1, R182). -/
  | txcEnum (a : DevNo)
  /-- The frame just sent is untagged (R111 line 2, R183); its class is `0 ‖ api`. -/
  | txcUntagged (api : BitVec 10) (a : DevNo)
  /-- The frame just sent is a download command, the first member of `UPD_LONG` (R111 line 3, R184). -/
  | txcTaggedLongDl (a : DevNo)
  /-- The frame just sent is a send-data command, any other member of `UPD_LONG` (R111 line 3, R184). -/
  | txcTaggedLongSd (cls : Cls) (a : DevNo)
  /-- The frame just sent is of any other, tagged class (R111 line 4, R184). -/
  | txcTagged (cls : Cls) (a : DevNo)
  deriving DecidableEq, Repr

end Sys2Proof
end

