-- ==== Sys2Proof/Config.lean ====
section
/-! DEFINITION. What an implementation of the engine fixes at construction (00_scope.md R10, 30_encoding.md
R112 to R114), the constraints the spec puts on it, the reference values of the spec's vectors, and the free
values (93_implementation_defined.md U1, U2). `State` carries one `Config` that no event writes, so a statement
about every state is a statement about every configuration (assumption 1). -/

namespace Sys2Proof

/-- The implementation parameters of R10 and R112 to R114. -/
structure Config where
  /-- `N`, the ring size. -/
  n : Nat
  /-- `T_SEND`, ticks from launch to transmit-complete. -/
  tSend : Nat
  /-- `T_ACK`, ticks from transmit-complete to the response (OPEN, D3). -/
  tAck : Nat
  /-- `T_UPDATE`, the longer response time-out (OPEN, D3). -/
  tUpdate : Nat
  /-- `T_SETTLE`, ticks of the settling window. -/
  tSettle : Nat
  /-- `W_CNT`, the width of `CNT`. -/
  wCnt : Nat
  /-- `R`, the number of result slots. -/
  r : Nat
  /-- `CHAIN_WRAP`: FAULT chains back to VOUT. -/
  chainWrap : Bool
  /-- `TARGET_RESET`. -/
  targetReset : DevNo
  /-- `CLS_STATUS[0..7]` (OPEN, D6). -/
  clsStatus : Vector Cls 8
  /-- `CLS_FWVER`. -/
  clsFwver : Cls
  /-- `CLS_ENUM`. -/
  clsEnum : Cls
  /-- `CLS_ENUM_REPLY`. -/
  clsEnumReply : Cls
  /-- `CLS_ACK`. -/
  clsAck : Cls
  /-- `CLS_UPDACK`. -/
  clsUpdack : Cls
  /-- `UPD_LONG`, the set of classes that get `T_UPDATE`. -/
  updLong : List Cls
  /-- `EXPLEN[0..8]`, the expected payload lengths of the status frames (OPEN, D8). -/
  expLen : Vector Nat 9
  deriving DecidableEq, Repr

/-- A class is tagged when its device-type and manufacturer fields are not both zero (R103). -/
abbrev Cls.Tagged (cls : Cls) : Prop := cls.extractLsb' 10 13 ≠ 0

/-- The class parameters that must be pairwise distinct (R113). The rule says eleven and lists twelve:
assumption 12. -/
def Config.responseClasses (c : Config) : List Cls :=
  c.clsStatus.toList ++ [c.clsFwver, c.clsAck, c.clsUpdack, c.clsEnumReply]

/-- The constraints of R10 and R113. -/
abbrev Config.Valid (c : Config) : Prop :=
  2 ≤ c.n ∧ 1 ≤ c.tSend ∧ 1 ≤ c.tAck ∧ c.tAck < c.tUpdate ∧ 1 ≤ c.tSettle ∧
  max (max c.tSend c.tAck) (max c.tUpdate c.tSettle) < 2 ^ c.wCnt ∧
  1 ≤ c.r ∧ c.r ≤ 4 ∧ c.targetReset ≠ 0 ∧
  c.responseClasses.Nodup ∧
  (∀ cls ∈ c.clsStatus.toList ++ c.clsFwver :: c.updLong, Cls.Tagged cls) ∧
  (∀ n ∈ c.expLen.toList, n ≤ 4)

/-- The reference values of R10, R112 and R114. `T_ACK` and `T_UPDATE` are OPEN in the spec; 10 and 50 are the
values of its vectors only (assumption 2). -/
def Config.reference : Config where
  n := 32
  tSend := 2
  tAck := 10
  tUpdate := 50
  tSettle := 80
  wCnt := 8
  r := 4
  chainWrap := true
  targetReset := 1
  clsStatus := #v[0x040410, 0x040411, 0x040412, 0x040413, 0x040414, 0x040415, 0x040416, 0x040417]
  clsFwver := 0x040420
  clsEnum := 0x000001
  clsEnumReply := 0x000001
  clsAck := 0x040430
  clsUpdack := 0x040431
  updLong := [0x040432, 0x040433]
  expLen := #v[2, 2, 2, 2, 4, 4, 1, 2, 4]

/-- A FREE VALUE (assumption 4): what ring element `i` holds after the `draw`-th RESET event; the spec leaves it
unspecified (R52, U1). It has no body, so nothing can be proved of it. -/
opaque Config.freeEntry : (draw : Nat) → (i : Nat) → QEntry

/-- A FREE VALUE (assumption 4): what `TXSLOT.ID, LEN, DATA` hold after the `draw`-th RESET event (R52, U2). -/
opaque Config.freeFrame : (draw : Nat) → Frame

end Sys2Proof
end

