-- ==== Sys2Proof/Machine/State.lean ====
section
/-! DEFINITION. The machine's state as plain data (10_state.md R30 to R52), the reasons a step can stop, and the
state after reset. The fields after `txslot` are the MODEL's own (INVENTORY.md, '## State'). -/

namespace Sys2Proof.Machine

/-- `STATE` (R31). The reserved encoding 3 cannot be written down. -/
inductive EngineState where
  | idle
  | waitForSend
  | waitForAck
  deriving DecidableEq, Repr

/-- `ST` of a result slot (R44). -/
inductive SlotState where
  | free
  | pending
  | done
  | timeout
  deriving DecidableEq, Repr

/-- One StatusField (R40): the raw payload of the last accepted frame, and whether it may be used (R42). -/
structure StatusField where
  value : BitVec 32
  valid : Bool
  deriving DecidableEq, Repr

/-- One result slot (R44, R105). -/
structure ResSlot where
  st : SlotState
  len : Len
  data : Payload
  deriving DecidableEq, Repr

/-- A result slot at reset (R52). -/
def ResSlot.reset : ResSlot := ⟨.free, 0, 0⟩

/-- `TXSLOT` (R46): `v` says that a frame has been handed to the adapter and neither completed nor aborted. -/
structure TxSlot where
  v : Bool
  frame : Frame
  deriving DecidableEq, Repr

/-- The queue ring `Q[0..N-1]` (R45): one record an index. The engine has no byte-addressed space (R70), so a
memory is the list of its records; equal memories are equal lists (assumption 5). -/
abbrev Memory := List QEntry

/-- The canonical form of the ring: exactly `n` elements. -/
abbrev Memory.wf (n : Nat) (m : Memory) : Prop := m.length = n

/-- What the engine emits to the bus adapter (R251). -/
inductive BusOut where
  | txStart (frame : Frame)
  | txAbort
  deriving DecidableEq, Repr

/-- The result of a host operation (R12 `return`; the result column of R107). -/
inductive HostResult where
  | ok
  | queueFull
  | badArg
  /-- RDSTAT: the pair (value, valid). -/
  | stat (value : BitVec 32) (valid : Bool)
  /-- RDPRES: the bitmap. -/
  | bitmap (pres : BitVec 64)
  /-- RDRES: `ST ‖ LEN ‖ DATA64` (R105). -/
  | slot (word : BitVec 70)
  /-- TAKEUPD: the flag before it was cleared. -/
  | bit (b : Bool)
  /-- RDREG: the register zero-extended to 32 bits. -/
  | value (v : BitVec 32)
  deriving DecidableEq, Repr

/-- The engine has no fault: every event is total (R13, R280), and its six error outcomes (R230) are ordinary
next states with a sticky bit. So no constructor stands here. -/
inductive Fault where
  deriving DecidableEq, Repr

/-- Why a step refuses. -/
inductive Refusal where
  /-- An arm of `exec` that has no meaning yet. Raised by no arm of this model. Safe: nothing can be concluded
  from a run that stops. -/
  | notModelled (mnemonic : String)
  /-- A reserved event word (R124), raised by `step` when the decoder rejects the word and by the meaning of
  RESERVED14. Safe: the spec itself names this outcome ("the model's *refused* outcome"). -/
  | reservedWord (why : Reject)
  deriving DecidableEq, Repr

/-- The state of the machine: the thirteen components of R30, then the model's own fields. -/
structure State where
  /-- `STATE` (R31). -/
  state : EngineState
  /-- `CNT` (R32): the countdown, less than `2 ^ W_CNT`. -/
  cnt : Nat
  /-- `RD` (R33): the read index, less than `N`; the block's program counter. -/
  rd : Nat
  /-- `WR` (R34): the write index, less than `N`. -/
  wr : Nat
  /-- `TARGET` (R35). -/
  target : DevNo
  /-- `CTRL.SWEEP_EN` (R36); the bits above it read as zero. -/
  sweepEn : Bool
  /-- `FLAGS.UPDACK` (R37), the one stored bit of `FLAGS`. -/
  updack : Bool
  /-- `ERR` (R38): six sticky bits. -/
  err : BitVec 6
  /-- `FIELD[0..8]` (R40). -/
  field : Vector StatusField 9
  /-- `PRES` (R43); bit 0 is hardwired to 0. -/
  pres : BitVec 64
  /-- `RES[0..R-1]` (R44). Indices from `R` to 3 do not exist: every access to one is BadArg. -/
  res : Vector ResSlot 4
  /-- `Q[0..N-1]` (R45). -/
  q : Memory
  /-- `TXSLOT` (R46). -/
  txslot : TxSlot
  /-- MODEL'S OWN: the parameters of R10, fixed at construction; no event writes them. -/
  cfg : Config
  /-- MODEL'S OWN: the event words presented and not yet taken, in time order; the words of one inner list are
  presented at the same instant (R241, R242). -/
  input : List (List EventWord)
  /-- MODEL'S OWN: every `emit` so far, oldest first (R12, R251). -/
  busOut : List BusOut
  /-- MODEL'S OWN: the result of every host operation so far, oldest first (R12). -/
  hostOut : List HostResult
  /-- MODEL'S OWN: how many times RESET has drawn free values (R52, U1, U2). -/
  draws : Nat
  deriving DecidableEq, Repr

/-- The state right after reset of an engine built with the parameters `c` (R52, R270). `Q[]` and the payload of
`TXSLOT`, which R52 leaves unspecified, are all zeros (assumption 3). -/
def State.resetOf (c : Config) : State where
  state := .idle
  cnt := 0
  rd := 0
  wr := 0
  target := c.targetReset
  sweepEn := true
  updack := false
  err := 0
  field := Vector.replicate 9 ⟨0, false⟩
  pres := 0
  res := Vector.replicate 4 ResSlot.reset
  q := List.replicate c.n QEntry.blank
  txslot := ⟨false, ⟨0, 0, 0⟩⟩
  cfg := c
  input := []
  busOut := []
  hostOut := []
  draws := 0

/-- The machine right after reset, with the spec's reference parameters (assumption 2). -/
def State.reset : State := State.resetOf Config.reference

end Sys2Proof.Machine
end

