-- ==== Sys2Proof/Machine/Operands.lean ====
section
/-! DEFINITION. Every operand form of the spec: the fields of an identifier (R100, R101, R103), payload bytes and
their little-endian decode (R71, R72), result-slot words (R105), and the classification of received and
transmitted classes (R110, R111, R174, R41). -/

namespace Sys2Proof.Machine

/-! ## The identifier -/

/-- `id[28:24]`, the device-type tag (R100). -/
def dtypeOf (id : Ident) : BitVec 5 := id.extractLsb' 24 5

/-- `id[23:16]`, the manufacturer tag (R100). -/
def mfrOf (id : Ident) : BitVec 8 := id.extractLsb' 16 8

/-- `id[15:6]`, the API class (R100). -/
def apiOf (id : Ident) : BitVec 10 := id.extractLsb' 6 10

/-- `id[5:0]`, the device number (R100). -/
def devNoOf (id : Ident) : DevNo := id.extractLsb' 0 6

/-- `id[28:6]`, the class (R103). -/
def classOf (id : Ident) : Cls := id.extractLsb' 6 23

/-- Assembly of an identifier: `CLASS ‖ ADDR` (R101). -/
def identOf (cls : Cls) (a : DevNo) : Ident := cls ++ a

/-- A class is untagged when its device-type and manufacturer fields, `cls[22:10]`, are zero (R103). -/
def untagged (cls : Cls) : Bool := cls.extractLsb' 10 13 == 0

/-- The frame a queue entry is sent as (R101, R171). -/
def frameOf (e : QEntry) : Frame := ⟨identOf e.cls e.addr, e.len, e.data⟩

/-! ## Payloads -/

/-- Payload byte `i`, in transmission order (R71, R102). -/
def byteOf (data : Payload) (i : Nat) : Byte := data.extractLsb' (8 * i) 8

/-- `le(bytes, n) = sum for i < n of bytes[i] * 256^i` (R71). PRESUMED by the spec (assumption 13). -/
def le (data : Payload) : Nat → Nat
  | 0 => 0
  | n + 1 => le data n + (byteOf data n).toNat * 256 ^ n

/-- `zext_32(le(data, len))`: the value a status frame carries (R72, R203). -/
def decodeValue (len : Len) (data : Payload) : BitVec 32 := BitVec.ofNat 32 (le data len.toNat)

/-- `LEN` is one of the reserved values 9 to 15 (R121). -/
def lenReserved (len : Len) : Bool := 8 < len.toNat

/-- Every payload byte at a position `>= LEN` is zero (R73, R124). -/
def payloadTailZero (len : Len) (data : Payload) : Bool :=
  (List.range 8).all fun i => i < len.toNat || byteOf data i == 0

/-! ## Numeric codes -/

/-- The encoding of `STATE` (R31). -/
def EngineState.code : EngineState → BitVec 2
  | .idle => 0
  | .waitForSend => 1
  | .waitForAck => 2

/-- The encoding of `ST` (R44, R105). -/
def SlotState.code : SlotState → BitVec 2
  | .free => 0
  | .pending => 1
  | .done => 2
  | .timeout => 3

/-- A result slot as RDRES returns it: `ST ‖ LEN ‖ DATA64` (R105). -/
def ResSlot.word (r : ResSlot) : BitVec 70 := r.st.code ++ r.len ++ r.data

/-! ## Classes and kinds -/

/-- The kinds of a received class (R110). -/
inductive RxKind where
  | status (k : Fin 8)
  | fwver
  | enumReply
  | ack
  | updack
  | other
  deriving DecidableEq, Repr

/-- The kinds of a transmitted class (R111). -/
inductive TxKind where
  | enum
  | noAck
  | ackLong
  | ack
  deriving DecidableEq, Repr

/-- The first `k` with `cls = CLS_STATUS[k]`, if there is one (R110 line 1, R174). -/
def statusIndex (c : Config) (cls : Cls) : Option (Fin 8) :=
  [0, 1, 2, 3, 4, 5, 6, 7].find? fun k : Fin 8 => cls == c.clsStatus[k]

/-- `kind(cls)`: the first line of R110 that applies. -/
def rxKind (c : Config) (cls : Cls) : RxKind :=
  match statusIndex c cls with
  | some k => .status k
  | none =>
    if cls = c.clsFwver then .fwver
    else if cls = c.clsEnumReply then .enumReply
    else if cls = c.clsAck then .ack
    else if cls = c.clsUpdack then .updack
    else .other

/-- `txkind(cls)`: the first line of R111 that applies. -/
def txKind (c : Config) (cls : Cls) : TxKind :=
  if cls = c.clsEnum then .enum
  else if untagged cls then .noAck
  else if cls ∈ c.updLong then .ackLong
  else .ack

/-- `field_of(cls)`: the StatusField whose class `cls` is (R174). -/
def fieldOf (c : Config) (cls : Cls) : Option (Fin 9) :=
  match statusIndex c cls with
  | some k => some k.castSucc
  | none => if cls = c.clsFwver then some 8 else none

/-- `next(k)`: the successor of status class `k` in the chain (R41). -/
def nextPoll (c : Config) (k : Fin 8) : Option (Fin 8) :=
  if h : k.val < 7 then some ⟨k.val + 1, by omega⟩
  else if c.chainWrap then some 0 else none

/-! ## The entries the engine makes itself -/

/-- An entry with no payload and no result reference (R115). -/
def bareEntry (a : DevNo) (cls : Cls) : QEntry := ⟨a, cls, 0, 0, false, 0⟩

end Sys2Proof.Machine
end

