-- ==== Sys2Proof/Machine/Flags.lean ====
section
/-! DEFINITION. Every flag the spec computes or stores: the ring predicates (R76), `settling` (R50), the `FLAGS`
word (R37), the sticky error bits (R38, R230) and the register file RDREG reads (R47). -/

namespace Sys2Proof.Machine

/-! ## Ring predicates -/

/-- `empty() = (WR = RD)` (R76). -/
def isEmpty (s : State) : Bool := s.wr == s.rd

/-- `full() = ((WR + 1) mod N = RD)` (R76). -/
def isFull (s : State) : Bool := (s.wr + 1) % s.cfg.n == s.rd

/-- `count() = (WR - RD) mod N`, the non-negative remainder (R39, R76). -/
def count (s : State) : Nat := (((s.wr : Int) - (s.rd : Int)) % (s.cfg.n : Int)).toNat

/-- `settling` (R50): `STATE = Idle and CNT != 0`. -/
def settling (s : State) : Bool := s.state == .idle && s.cnt != 0

/-! ## The error register -/

/-- The six error outcomes (R230). -/
inductive ErrorOutcome where
  | queueFull
  | sendTimeout
  | ackTimeout
  | malformedResponse
  | chainDrop
  | badArg
  deriving DecidableEq, Repr

/-- The bit of `ERR` an error outcome sets (R38, R230). -/
def ErrorOutcome.bit : ErrorOutcome → Nat
  | .queueFull => 0
  | .sendTimeout => 1
  | .ackTimeout => 2
  | .malformedResponse => 3
  | .chainDrop => 4
  | .badArg => 5

/-- The mask of `ERR` with that one bit set. -/
def ErrorOutcome.mask (e : ErrorOutcome) : BitVec 6 := BitVec.ofNat 6 (2 ^ e.bit)

/-! ## The registers RDREG reads -/

/-- `FLAGS` (R37): bit 0 UPDACK, 1 TXV, 2 SETTLING, 3 QEMPTY, 4 QFULL, zero above. -/
def flagsWord (s : State) : BitVec 32 :=
  BitVec.ofNat 32 (s.updack.toNat + 2 * s.txslot.v.toNat + 4 * (settling s).toNat + 8 * (isEmpty s).toNat
    + 16 * (isFull s).toNat)

/-- Register `n` of R47, zero-extended to 32 bits; `none` for the reserved numbers 9 to 15. -/
def readReg (s : State) (n : BitVec 4) : Option (BitVec 32) :=
  match n.toNat with
  | 0 => some (s.state.code.setWidth 32)
  | 1 => some (BitVec.ofNat 32 s.cnt)
  | 2 => some (BitVec.ofNat 32 s.rd)
  | 3 => some (BitVec.ofNat 32 s.wr)
  | 4 => some (s.target.setWidth 32)
  | 5 => some (BitVec.ofNat 32 s.sweepEn.toNat)
  | 6 => some (flagsWord s)
  | 7 => some (s.err.setWidth 32)
  | 8 => some (BitVec.ofNat 32 (count s))
  | _ => none

end Sys2Proof.Machine
end

