-- ==== Sys2Proof/Machine/Ops.lean ====
section
/-! DEFINITION. The named operations over the ring, the result slots, the StatusField file, the presence bitmap
and the outputs; `push` (R77), `dispatch` (R171), `retire` (R172); and, as this block's "exception", the error
outcome `raise` with the recovery sequence that returns the engine to Idle (R173, R177, R178, R244, R245). -/

namespace Sys2Proof.Machine

/-! ## Primitive updates -/

/-- `MemRead(Q, i)` (R12). -/
def readEntry (s : State) (i : Nat) : QEntry := s.q.getD i QEntry.blank

/-- `MemWrite(Q, i, e)` (R12). -/
def writeEntry (i : Nat) (e : QEntry) (s : State) : State := { s with q := s.q.set i e }

/-- `MemRead(RES, r)` (R12). -/
def readSlot (s : State) (r : SlotIx) : ResSlot := s.res[r.toFin]

/-- `MemWrite(RES, r, v)` (R12). -/
def writeSlot (r : SlotIx) (v : ResSlot) (s : State) : State := { s with res := s.res.set r.toFin v }

/-- `raise <Error>` (R12, R230): set the sticky bit. -/
def raise (e : ErrorOutcome) (s : State) : State := { s with err := s.err ||| e.mask }

/-- `return <result>` of a host operation (R12). -/
def answer (r : HostResult) (s : State) : State := { s with hostOut := s.hostOut ++ [r] }

/-- `emit` to the bus adapter (R12, R251). -/
def emit (o : BusOut) (s : State) : State := { s with busOut := s.busOut ++ [o] }

/-- `FIELD[k] <- (v, 1)` (R203). -/
def acceptField (k : Fin 9) (v : BitVec 32) (s : State) : State :=
  { s with field := s.field.set k ⟨v, true⟩ }

/-- `FIELD[k].VALID <- 0`, `VALUE` kept (R42). -/
def invalidateField (k : Fin 9) (s : State) : State :=
  { s with field := s.field.set k { s.field[k] with valid := false } }

/-- `FIELD[k].VALID <- 0` for all nine (R42, R142). -/
def invalidateAll (s : State) : State :=
  { s with field := Vector.ofFn fun k => { s.field[k] with valid := false } }

/-- `PRES[a] <- 1`; bit 0 is hardwired to 0 (R43). -/
def setPresent (a : DevNo) (s : State) : State :=
  { s with pres := if a = 0 then s.pres else s.pres ||| BitVec.ofNat 64 (2 ^ a.toNat) }

/-- `STATE <- Idle; CNT <- v`. -/
def toIdle (v : Nat) (s : State) : State := { s with state := .idle, cnt := v }

/-- `STATE <- WaitForAck; CNT <- v` (R184). -/
def toWaitForAck (v : Nat) (s : State) : State := { s with state := .waitForAck, cnt := v }

/-! ## The ring -/

/-- The head, `Q[RD]`. -/
def head (s : State) : QEntry := readEntry s s.rd

/-- `push(e)` (R77): `none` is its answer `false`, with nothing written. -/
def push (e : QEntry) (s : State) : Option State :=
  if isFull s then none
  else some { writeEntry s.wr e s with wr := (s.wr + 1) % s.cfg.n }

/-- `dispatch()` (R171): the launch, the engine's only spontaneous action. -/
def dispatch (s : State) : State :=
  if s.state = .idle ∧ isEmpty s = false ∧ s.cnt = 0 then
    emit (.txStart (frameOf (head s)))
      { s with txslot := ⟨true, frameOf (head s)⟩, state := .waitForSend, cnt := s.cfg.tSend }
  else s

/-- The slot write of `retire`: DONE with the response, or the TIMEOUT marker (R172). -/
def slotOf (ok : Bool) (len : Len) (data : Payload) : ResSlot :=
  if ok then ⟨.done, len, data⟩ else ⟨.timeout, 0, 0⟩

/-- `RD <- (RD + 1) mod N`: the only way the "program counter" moves (R12, R33). -/
def advanceRd (s : State) : State := { s with rd := (s.rd + 1) % s.cfg.n }

/-- `retire(ok, len, data)` (R172). -/
def retire (ok : Bool) (len : Len) (data : Payload) (s : State) : State :=
  advanceRd (if (head s).rv then writeSlot (head s).rslot (slotOf ok len data) s else s)

/-! ## Errors and recovery -/

/-- The first half of `fail_head()`: invalidate the field whose class is the head's (R173). -/
def invalidateHeadField (s : State) : State :=
  match fieldOf s.cfg (head s).cls with
  | some k => invalidateField k s
  | none => s

/-- `fail_head()` (R173): the common part of both time-out paths. -/
def failHead (s : State) : State := retire false 0 0 (invalidateHeadField s)

/-- The recovery sequence both time-outs share (R244): raise the error, fail the head, return to Idle. `CNT` is
already 0 when it runs. -/
def recover (e : ErrorOutcome) (s : State) : State := { failHead (raise e s) with state := .idle }

/-- `send_timeout()` (R177): abort the transmit slot, then recover. -/
def sendTimeout (s : State) : State :=
  recover .sendTimeout (emit .txAbort { s with txslot := { s.txslot with v := false } })

/-- `ack_timeout()` (R178). -/
def ackTimeout (s : State) : State := recover .ackTimeout s

/-- BadArg of a host operation (R230, R234): the sticky bit and the result, nothing else. -/
def refuseArg (s : State) : State := answer .badArg (raise .badArg s)

/-- A host enqueue whose failure ends the operation at once (R140). -/
def hostEnqueue (e : QEntry) (s : State) : State :=
  match push e s with
  | some s' => answer .ok (dispatch s')
  | none => answer .queueFull (raise .queueFull s)

/-- The enqueue of an engine-made entry at the end of SETADDR and ENUM (R142, R143): `dispatch()` runs on both
paths, and the result says whether the push succeeded. -/
def engineEnqueue (e : QEntry) (s : State) : State :=
  match push e s with
  | some s' => answer .ok (dispatch s')
  | none => answer .queueFull (dispatch (raise .queueFull s))

/-! ## Inputs -/

/-- The order in which events presented at the same instant are taken (R242): TXC, RXF, TICK, then the host
operations. The rank is read from `OP` alone, so a word that spells no event has the place of its `OP`: TICK's,
TXC's or RXF's for `OP` 0, 1 or 2 with a field that must be zero (or a payload tail) set, the host's for every other.
RESET has the host's place. Both are the model's choice, DESIGN CHOICE, assumption 7. -/
def priority (w : EventWord) : Nat :=
  match (w.extractLsb' 100 4).toNat with
  | 1 => 0
  | 2 => 1
  | 0 => 2
  | _ => 3

/-- The word of one instant that is taken first, and the others in their order: the first among those of the
best priority. -/
def pickFirst : List EventWord → Option (EventWord × List EventWord)
  | [] => none
  | w :: ws =>
    match pickFirst ws with
    | none => some (w, [])
    | some (v, rest) => if priority w ≤ priority v then some (w, ws) else some (v, w :: rest)

/-- The next word of the presented input: instants in time order, inside an instant by `pickFirst`. -/
def takeInput : List (List EventWord) → Option (EventWord × List (List EventWord))
  | [] => none
  | now :: later =>
    match pickFirst now with
    | none => takeInput later
    | some (w, rest) => some (w, rest :: later)

/-- Fetch: the event word the engine takes next, and the state with that word taken. -/
def fetch (s : State) : Option (EventWord × State) :=
  match takeInput s.input with
  | none => none
  | some (w, rest) => some (w, { s with input := rest })

end Sys2Proof.Machine
end

