-- ==== Sys2Proof/Machine/Demux.lean ====
section
/-! DEFINITION. The response demultiplexer (42_demux.md): the meaning of RXF and of the thirteen rows of its
second-level decode, the class of the received frame (R110). -/

namespace Sys2Proof.Machine

/-! ## Shared parts -/

/-- The frame of every received-frame row (R200): a reserved length drops the frame as malformed before anything
else; otherwise the row's `action`; then `dispatch()`. -/
def receive (len : Len) (action : State → State) (s : State) : State :=
  dispatch (if lenReserved len then raise .malformedResponse s else action s)

/-- The class of StatusField `k` (R41). -/
def classOfField (c : Config) (k : Fin 9) : Cls :=
  if h : k.val < 8 then c.clsStatus[k.val] else c.clsFwver

/-- StatusField update (R203). -/
def updateField (k : Fin 9) (a : DevNo) (len : Len) (data : Payload) (s : State) : State :=
  if a = s.target then acceptField k (decodeValue len data) s else invalidateField k s

/-- `retire(ok, len, data); STATE <- Idle; CNT <- 0` (R204, R208, R209, R210). -/
def complete (ok : Bool) (len : Len) (data : Payload) (s : State) : State :=
  toIdle 0 (retire ok len data s)

/-- Retirement by a status frame (R204): class equal to the head's, `ok` iff the replier is the addressed peer. -/
def retireByStatus (cls : Cls) (a : DevNo) (len : Len) (data : Payload) (s : State) : State :=
  if s.state = .waitForAck ∧ (head s).cls = cls then complete (a == (head s).addr) len data s else s

/-- Chained poll (R205). -/
def chainPoll (k : Fin 8) (s : State) : State :=
  match nextPoll s.cfg k with
  | none => s
  | some j =>
    if s.sweepEn then
      match push (bareEntry s.target s.cfg.clsStatus[j]) s with
      | some s' => s'
      | none => raise .chainDrop s
    else s

/-- A frame of a status class without its chained poll (R202 to R204, R206). -/
def statusFrame (k : Fin 9) (a : DevNo) (len : Len) (data : Payload) (s : State) : State :=
  retireByStatus (classOfField s.cfg k) a len data (updateField k a len data s)

/-- `rx_status(k, a, len, data)` for `k` in 0..7 (R202 to R205, in the order of R201). -/
def rxStatus (k : Fin 8) (a : DevNo) (len : Len) (data : Payload) (s : State) : State :=
  if len.toNat = s.cfg.expLen[k.castSucc] then chainPoll k (statusFrame k.castSucc a len data s)
  else raise .malformedResponse s

/-- `rx_status(8, a, len, data)`: the same without rule R205 (R206). -/
def rxFwver (a : DevNo) (len : Len) (data : Payload) (s : State) : State :=
  if len.toNat = s.cfg.expLen[(8 : Fin 9)] then statusFrame 8 a len data s
  else raise .malformedResponse s

/-- `rx_enum(a)` (R207). -/
def rxEnum (a : DevNo) (s : State) : State :=
  if settling s ∧ a ≠ 0 then setPresent a s else s

/-- `rx_ack()` (R208). -/
def rxAck (s : State) : State :=
  if s.state = .waitForAck then complete false 0 0 s else s

/-- `rx_updack()` (R209). -/
def rxUpdack (s : State) : State := rxAck { s with updack := true }

/-- `rx_other(cls, a, len, data)` (R210). -/
def rxOther (cls : Cls) (a : DevNo) (len : Len) (data : Payload) (s : State) : State :=
  if s.state = .waitForAck ∧ (head s).cls = cls ∧ (head s).addr = a then complete true len data s else s

/-! ## The second-level rows -/

/-- RXF.STATUS.VOUT. -/
def execRxfStatusVout (a : DevNo) (len : Len) (data : Payload) (s : State) : Host.Outcome State Fault Refusal :=
  .next (receive len (rxStatus 0 a len data) s)

/-- RXF.STATUS.VBUS. -/
def execRxfStatusVbus (a : DevNo) (len : Len) (data : Payload) (s : State) : Host.Outcome State Fault Refusal :=
  .next (receive len (rxStatus 1 a len data) s)

/-- RXF.STATUS.CURRENT. -/
def execRxfStatusCurrent (a : DevNo) (len : Len) (data : Payload) (s : State) : Host.Outcome State Fault Refusal :=
  .next (receive len (rxStatus 2 a len data) s)

/-- RXF.STATUS.TEMP. -/
def execRxfStatusTemp (a : DevNo) (len : Len) (data : Payload) (s : State) : Host.Outcome State Fault Refusal :=
  .next (receive len (rxStatus 3 a len data) s)

/-- RXF.STATUS.POSITION. -/
def execRxfStatusPosition (a : DevNo) (len : Len) (data : Payload) (s : State) : Host.Outcome State Fault Refusal :=
  .next (receive len (rxStatus 4 a len data) s)

/-- RXF.STATUS.SPEED. -/
def execRxfStatusSpeed (a : DevNo) (len : Len) (data : Payload) (s : State) : Host.Outcome State Fault Refusal :=
  .next (receive len (rxStatus 5 a len data) s)

/-- RXF.STATUS.LIMIT. -/
def execRxfStatusLimit (a : DevNo) (len : Len) (data : Payload) (s : State) : Host.Outcome State Fault Refusal :=
  .next (receive len (rxStatus 6 a len data) s)

/-- RXF.STATUS.FAULT. -/
def execRxfStatusFault (a : DevNo) (len : Len) (data : Payload) (s : State) : Host.Outcome State Fault Refusal :=
  .next (receive len (rxStatus 7 a len data) s)

/-- RXF.FWVER (R206). -/
def execRxfFwver (a : DevNo) (len : Len) (data : Payload) (s : State) : Host.Outcome State Fault Refusal :=
  .next (receive len (rxFwver a len data) s)

/-- RXF.ENUM_REPLY (R207); its payload is not looked at. -/
def execRxfEnumReply (a : DevNo) (len : Len) (_data : Payload) (s : State) : Host.Outcome State Fault Refusal :=
  .next (receive len (rxEnum a) s)

/-- RXF.ACK (R208); neither its device number nor its payload is looked at. -/
def execRxfAck (_a : DevNo) (len : Len) (_data : Payload) (s : State) : Host.Outcome State Fault Refusal :=
  .next (receive len rxAck s)

/-- RXF.UPDACK (R209). -/
def execRxfUpdack (_a : DevNo) (len : Len) (_data : Payload) (s : State) : Host.Outcome State Fault Refusal :=
  .next (receive len rxUpdack s)

/-- RXF.OTHER (R210). -/
def execRxfOther (cls : Cls) (a : DevNo) (len : Len) (data : Payload) (s : State) :
    Host.Outcome State Fault Refusal :=
  .next (receive len (rxOther cls a len data) s)

/-! ## RXF -/

/-- The row of status class `k`. -/
def execRxfStatus (k : Fin 8) (a : DevNo) (len : Len) (data : Payload) (s : State) :
    Host.Outcome State Fault Refusal :=
  match k with
  | 0 => execRxfStatusVout a len data s
  | 1 => execRxfStatusVbus a len data s
  | 2 => execRxfStatusCurrent a len data s
  | 3 => execRxfStatusTemp a len data s
  | 4 => execRxfStatusPosition a len data s
  | 5 => execRxfStatusSpeed a len data s
  | 6 => execRxfStatusLimit a len data s
  | 7 => execRxfStatusFault a len data s

/-- RXF (R200): the second-level decode of the received identifier (R110), and that row's meaning. Every row
tests the reserved lengths first, so the test comes before the classification takes effect. -/
def execRxf (id : Ident) (len : Len) (data : Payload) (s : State) : Host.Outcome State Fault Refusal :=
  match rxKind s.cfg (classOf id) with
  | .status k => execRxfStatus k (devNoOf id) len data s
  | .fwver => execRxfFwver (devNoOf id) len data s
  | .enumReply => execRxfEnumReply (devNoOf id) len data s
  | .ack => execRxfAck (devNoOf id) len data s
  | .updack => execRxfUpdack (devNoOf id) len data s
  | .other => execRxfOther (classOf id) (devNoOf id) len data s

end Sys2Proof.Machine
end

