-- ==== Sys2Proof/Machine/HostOps.lean ====
section
/-! DEFINITION. The host operations (40_host_ops.md): the meanings of ENQ, ENQR, SETADDR, ENUM, SWEEP, RDSTAT,
RDPRES, RDRES, TAKEUPD, RDREG, CLRERR and RESET, and of the reserved opcode 14 (R124). -/

namespace Sys2Proof.Machine

/-- ENQ (R140). -/
def execEnq (cls : Cls) (a : DevNo) (len : Len) (data : Payload) (s : State) : Host.Outcome State Fault Refusal :=
  .next (if lenReserved len then refuseArg s else hostEnqueue ⟨a, cls, len, data, false, 0⟩ s)

/-- The slot an accepted ENQR presets (R141). -/
def ResSlot.preset : ResSlot := ⟨.pending, 0, 0⟩

/-- The operand test of ENQR (R141): reserved length, slot out of range, slot still pending. -/
def enqrBadArg (len : Len) (r : SlotIx) (s : State) : Bool :=
  lenReserved len || s.cfg.r ≤ r.toNat || (readSlot s r).st == .pending

/-- ENQR (R141): BadArg before QueueFull; a declined ENQR leaves the slot alone. -/
def execEnqr (cls : Cls) (a : DevNo) (len : Len) (data : Payload) (r : SlotIx) (s : State) :
    Host.Outcome State Fault Refusal :=
  .next (if enqrBadArg len r s then refuseArg s
    else if isFull s then answer .queueFull (raise .queueFull s)
    else hostEnqueue ⟨a, cls, len, data, true, r⟩ (writeSlot r ResSlot.preset s))

/-- SETADDR (R142). -/
def execSetaddr (a : DevNo) (s : State) : Host.Outcome State Fault Refusal :=
  .next (if a = 0 then refuseArg s
    else engineEnqueue (bareEntry a s.cfg.clsFwver) (invalidateAll { s with target := a }))

/-- ENUM (R143). -/
def execEnum (s : State) : Host.Outcome State Fault Refusal :=
  .next (engineEnqueue (bareEntry 0 s.cfg.clsEnum) { s with pres := 0 })

/-- SWEEP (R144); no `dispatch()`. -/
def execSweep (b : Bool) (s : State) : Host.Outcome State Fault Refusal :=
  .next (answer .ok { s with sweepEn := b })

/-- RDSTAT (R145). -/
def execRdstat (k : BitVec 4) (s : State) : Host.Outcome State Fault Refusal :=
  .next (if h : k.toNat < 9 then answer (.stat s.field[k.toNat].value s.field[k.toNat].valid) s else refuseArg s)

/-- RDPRES (R146). -/
def execRdpres (s : State) : Host.Outcome State Fault Refusal :=
  .next (answer (.bitmap s.pres) s)

/-- RDRES (R147, R105). -/
def execRdres (r : SlotIx) (s : State) : Host.Outcome State Fault Refusal :=
  .next (if s.cfg.r ≤ r.toNat then refuseArg s else answer (.slot (readSlot s r).word) s)

/-- TAKEUPD (R148). -/
def execTakeupd (s : State) : Host.Outcome State Fault Refusal :=
  .next (answer (.bit s.updack) { s with updack := false })

/-- RDREG (R149, R47). -/
def execRdreg (n : BitVec 4) (s : State) : Host.Outcome State Fault Refusal :=
  .next (match readReg s n with
    | some v => answer (.value v) s
    | none => refuseArg s)

/-- CLRERR (R150). -/
def execClrerr (m : BitVec 6) (s : State) : Host.Outcome State Fault Refusal :=
  .next (answer .ok { s with err := s.err &&& ~~~m })

/-- The ring and the transmit slot after a RESET event: their contents are unspecified (R52), so they are free
values of this draw; `TXSLOT.V` is 0. -/
def scramble (draw : Nat) (s : State) : State :=
  { s with
    q := (List.range s.cfg.n).map (Config.freeEntry draw)
    txslot := ⟨false, Config.freeFrame draw⟩
    draws := draw + 1 }

/-- RESET (R151): every row of the table of R52; no output and no `dispatch()`. What is outside the engine stays:
the parameters, the events presented, and the record of outputs and results. -/
def execReset (s : State) : Host.Outcome State Fault Refusal :=
  .next (scramble s.draws
    { State.resetOf s.cfg with
      input := s.input
      busOut := s.busOut
      hostOut := s.hostOut })

/-- RESERVED14 (R124): "a decoder must reject it (the model's *refused* outcome)". -/
def execReserved14 (_rest : BitVec 100) (_s : State) : Host.Outcome State Fault Refusal :=
  .refused (.reservedWord .opcode14)

end Sys2Proof.Machine
end

