-- ==== Sys2Proof/Machine/Scheduler.lean ====
section
/-! DEFINITION. The transmit scheduler (41_scheduler.md): the meanings of TICK, of TXC, and of the five rows of
its second-level decode, the class of the frame just sent (R111). -/

namespace Sys2Proof.Machine

/-! ## TICK -/

/-- What an expiry does, by `STATE` (R176): the two time-outs, or the settling window closes (R180). -/
def expire (s : State) : State :=
  match s.state with
  | .idle => s
  | .waitForSend => sendTimeout s
  | .waitForAck => ackTimeout s

/-- The countdown of one TICK (R175): decrement a running countdown, expire at the passage from 1 to 0. -/
def countDown (s : State) : State :=
  if s.cnt = 0 then s
  else if s.cnt = 1 then expire { s with cnt := 0 }
  else { s with cnt := s.cnt - 1 }

/-- TICK (R175, R179, R180, R185). -/
def execTick (s : State) : Host.Outcome State Fault Refusal :=
  .next (dispatch (countDown s))

/-! ## TXC -/

/-- The frame of every TXC row (R181): in WaitForSend free the transmit slot and do the row's `action`, elsewhere
ignore the event (D29); then `dispatch()`. -/
def txComplete (action : State → State) (s : State) : State :=
  dispatch (if s.state = .waitForSend then action { s with txslot := { s.txslot with v := false } } else s)

/-- TXC.ENUM (R182): `enum_sent()`. -/
def execTxcEnum (_a : DevNo) (s : State) : Host.Outcome State Fault Refusal :=
  .next (txComplete (fun s => toIdle s.cfg.tSettle (retire false 0 0 s)) s)

/-- TXC.UNTAGGED (R183): `noack_sent()`. -/
def execTxcUntagged (_api : BitVec 10) (_a : DevNo) (s : State) : Host.Outcome State Fault Refusal :=
  .next (txComplete (fun s => toIdle 0 (retire false 0 0 s)) s)

/-- TXC.TAGGED.LONG.DL (R184): a download command waits `T_UPDATE`. -/
def execTxcTaggedLongDl (_a : DevNo) (s : State) : Host.Outcome State Fault Refusal :=
  .next (txComplete (fun s => toWaitForAck s.cfg.tUpdate s) s)

/-- TXC.TAGGED.LONG.SD (R184): a send-data command waits `T_UPDATE`. -/
def execTxcTaggedLongSd (_cls : Cls) (_a : DevNo) (s : State) : Host.Outcome State Fault Refusal :=
  .next (txComplete (fun s => toWaitForAck s.cfg.tUpdate s) s)

/-- TXC.TAGGED (R184): any other tagged command waits `T_ACK`. -/
def execTxcTagged (_cls : Cls) (_a : DevNo) (s : State) : Host.Outcome State Fault Refusal :=
  .next (txComplete (fun s => toWaitForAck s.cfg.tAck s) s)

/-- TXC (R181): the second-level decode of the class of the head (R111), and that row's meaning. Outside
WaitForSend no frame has just been sent and the event is ignored (D29). -/
def execTxc (s : State) : Host.Outcome State Fault Refusal :=
  if s.state = .waitForSend then
    match txKind s.cfg (head s).cls with
    | .enum => execTxcEnum (head s).addr s
    | .noAck => execTxcUntagged ((head s).cls.extractLsb' 0 10) (head s).addr s
    | .ackLong =>
      if s.cfg.updLong.head? = some (head s).cls then execTxcTaggedLongDl (head s).addr s
      else execTxcTaggedLongSd (head s).cls (head s).addr s
    | .ack => execTxcTagged (head s).cls (head s).addr s
  else .next (dispatch s)

end Sys2Proof.Machine
end

