-- ==== Sys2Proof/Machine/Dispatch.lean ====
section
/-! DEFINITION. The meaning of every instruction: one arm per constructor of `Instr`. -/

namespace Sys2Proof.Machine

def exec (i : Instr) (s : State) : Host.Outcome State Fault Refusal :=
  match i with
  | .tick => Sys2Proof.Machine.execTick s
  | .txc => Sys2Proof.Machine.execTxc s
  | .rxf id len data => Sys2Proof.Machine.execRxf id len data s
  | .enq cls a len data => Sys2Proof.Machine.execEnq cls a len data s
  | .enqr cls a len data r => Sys2Proof.Machine.execEnqr cls a len data r s
  | .setaddr a => Sys2Proof.Machine.execSetaddr a s
  | .enum => Sys2Proof.Machine.execEnum s
  | .sweep b => Sys2Proof.Machine.execSweep b s
  | .rdstat k => Sys2Proof.Machine.execRdstat k s
  | .rdpres => Sys2Proof.Machine.execRdpres s
  | .rdres r => Sys2Proof.Machine.execRdres r s
  | .takeupd => Sys2Proof.Machine.execTakeupd s
  | .rdreg n => Sys2Proof.Machine.execRdreg n s
  | .clrerr m => Sys2Proof.Machine.execClrerr m s
  | .reserved14 rest => Sys2Proof.Machine.execReserved14 rest s
  | .reset => Sys2Proof.Machine.execReset s
  | .rxfStatusVout a len data => Sys2Proof.Machine.execRxfStatusVout a len data s
  | .rxfStatusVbus a len data => Sys2Proof.Machine.execRxfStatusVbus a len data s
  | .rxfStatusCurrent a len data => Sys2Proof.Machine.execRxfStatusCurrent a len data s
  | .rxfStatusTemp a len data => Sys2Proof.Machine.execRxfStatusTemp a len data s
  | .rxfStatusPosition a len data => Sys2Proof.Machine.execRxfStatusPosition a len data s
  | .rxfStatusSpeed a len data => Sys2Proof.Machine.execRxfStatusSpeed a len data s
  | .rxfStatusLimit a len data => Sys2Proof.Machine.execRxfStatusLimit a len data s
  | .rxfStatusFault a len data => Sys2Proof.Machine.execRxfStatusFault a len data s
  | .rxfFwver a len data => Sys2Proof.Machine.execRxfFwver a len data s
  | .rxfEnumReply a len data => Sys2Proof.Machine.execRxfEnumReply a len data s
  | .rxfAck a len data => Sys2Proof.Machine.execRxfAck a len data s
  | .rxfUpdack a len data => Sys2Proof.Machine.execRxfUpdack a len data s
  | .rxfOther cls a len data => Sys2Proof.Machine.execRxfOther cls a len data s
  | .txcEnum a => Sys2Proof.Machine.execTxcEnum a s
  | .txcUntagged api a => Sys2Proof.Machine.execTxcUntagged api a s
  | .txcTaggedLongDl a => Sys2Proof.Machine.execTxcTaggedLongDl a s
  | .txcTaggedLongSd cls a => Sys2Proof.Machine.execTxcTaggedLongSd cls a s
  | .txcTagged cls a => Sys2Proof.Machine.execTxcTagged cls a s

end Sys2Proof.Machine
end

