-- ==== Sys2Proof/WellFormed.lean ====
section
/-! DEFINITION. Which instructions are well-formed: those some word of the spec's encodings spells (R106, R110,
R111, R124). The helpers it checks with are in Machine/Operands.lean. -/

namespace Sys2Proof

/-- A payload with its length tag as an RXF, ENQ or ENQR word may carry it: a reserved length with any bytes, or
a length of 0 to 8 with zeros behind the payload (R121, R124). -/
def payloadOk (len : Len) (data : Payload) : Bool :=
  Machine.lenReserved len || Machine.payloadTailZero len data

/-- A frame that reaches the second-level decode: its length is not reserved (R200). -/
def frameOk (len : Len) (data : Payload) : Bool :=
  !Machine.lenReserved len && Machine.payloadTailZero len data

/-- Well-formedness under the parameters `c`. -/
def Instr.wellFormed (c : Config) : Instr → Bool
  | .tick => true
  | .txc => true
  | .rxf _ len data => payloadOk len data
  | .enq _ _ len data => payloadOk len data
  | .enqr _ _ len data _ => payloadOk len data
  | .setaddr _ => true
  | .enum => true
  | .sweep _ => true
  | .rdstat _ => true
  | .rdpres => true
  | .rdres _ => true
  | .takeupd => true
  | .rdreg _ => true
  | .clrerr _ => true
  | .reserved14 _ => false
  | .reset => true
  | .rxfStatusVout _ len data => frameOk len data
  | .rxfStatusVbus _ len data => frameOk len data
  | .rxfStatusCurrent _ len data => frameOk len data
  | .rxfStatusTemp _ len data => frameOk len data
  | .rxfStatusPosition _ len data => frameOk len data
  | .rxfStatusSpeed _ len data => frameOk len data
  | .rxfStatusLimit _ len data => frameOk len data
  | .rxfStatusFault _ len data => frameOk len data
  | .rxfFwver _ len data => frameOk len data
  | .rxfEnumReply _ len data => frameOk len data
  | .rxfAck _ len data => frameOk len data
  | .rxfUpdack _ len data => frameOk len data
  | .rxfOther cls _ len data => frameOk len data && Machine.rxKind c cls == .other
  | .txcEnum _ => true
  | .txcUntagged api _ => Machine.txKind c (BitVec.setWidth 23 api) == .noAck
  | .txcTaggedLongDl _ => c.updLong.head?.any fun cls => Machine.txKind c cls == .ackLong
  | .txcTaggedLongSd cls _ => Machine.txKind c cls == .ackLong && c.updLong.head? != some cls
  | .txcTagged cls _ => Machine.txKind c cls == .ack

/-- The sixteen EVT rows of the opcode table, as against the eighteen ID29 rows. -/
def Instr.isEvent : Instr → Bool
  | .tick => true
  | .txc => true
  | .rxf _ _ _ => true
  | .enq _ _ _ _ => true
  | .enqr _ _ _ _ _ => true
  | .setaddr _ => true
  | .enum => true
  | .sweep _ => true
  | .rdstat _ => true
  | .rdpres => true
  | .rdres _ => true
  | .takeupd => true
  | .rdreg _ => true
  | .clrerr _ => true
  | .reserved14 _ => true
  | .reset => true
  | .rxfStatusVout _ _ _ => false
  | .rxfStatusVbus _ _ _ => false
  | .rxfStatusCurrent _ _ _ => false
  | .rxfStatusTemp _ _ _ => false
  | .rxfStatusPosition _ _ _ => false
  | .rxfStatusSpeed _ _ _ => false
  | .rxfStatusLimit _ _ _ => false
  | .rxfStatusFault _ _ _ => false
  | .rxfFwver _ _ _ => false
  | .rxfEnumReply _ _ _ => false
  | .rxfAck _ _ _ => false
  | .rxfUpdack _ _ _ => false
  | .rxfOther _ _ _ _ => false
  | .txcEnum _ => false
  | .txcUntagged _ _ => false
  | .txcTaggedLongDl _ => false
  | .txcTaggedLongSd _ _ => false
  | .txcTagged _ _ => false

end Sys2Proof
end

