-- ==== Sys2Proof/Decode.lean ====
section
/-! DEFINITION. The decoder of event words (R106, R107, R124), total on any word and rejecting by name; the
second-level decode of a received identifier (R110) and of the identifier of the frame just sent (R111); and the
encoder, written from the same tables. -/

namespace Sys2Proof

/-! ## Format EVT -/

/-- The fields of an event word (R106). -/
structure EventFields where
  op : BitVec 4
  id : Ident
  len : Len
  data : Payload
  rslot : SlotIx
  b : BitVec 1
  deriving DecidableEq, Repr

/-- The fields taken out of a word: `W[103:100]`, `W[99:71]`, `W[70:67]`, `W[66:3]`, `W[2:1]`, `W[0]` (R106). -/
def EventFields.ofWord (w : EventWord) : EventFields where
  op := w.extractLsb' 100 4
  id := w.extractLsb' 71 29
  len := w.extractLsb' 67 4
  data := w.extractLsb' 3 64
  rslot := w.extractLsb' 1 2
  b := w.extractLsb' 0 1

/-- The word with these fields (R106). -/
def EventFields.toWord (f : EventFields) : EventWord :=
  f.op ++ f.id ++ f.len ++ f.data ++ f.rslot ++ f.b

/-! ## The decoder -/

/-- `x`, unless a field that must be zero is not (R124). -/
def requireUnused (zero : Bool) (x : Except Reject Instr) : Except Reject Instr :=
  if zero then x else .error .unusedField

/-- An instruction with a payload: the bytes behind a length of 0 to 8 must be zero (R124). -/
def requirePayload (f : EventFields) (i : Instr) : Except Reject Instr :=
  if payloadOk f.len f.data then .ok i else .error .payloadTail

/-- The instruction the fields spell (R107), each unused field checked (R124). -/
def decodeFields (f : EventFields) : Except Reject Instr :=
  let id0 := f.id == 0
  let len0 := f.len == 0
  let data0 := f.data == 0
  let rslot0 := f.rslot == 0
  let b0 := f.b == 0
  match f.op.toNat with
  | 0 => requireUnused (id0 && len0 && data0 && rslot0 && b0) (.ok .tick)
  | 1 => requireUnused (id0 && len0 && data0 && rslot0 && b0) (.ok .txc)
  | 2 => requireUnused (rslot0 && b0) (requirePayload f (.rxf f.id f.len f.data))
  | 3 => requireUnused (rslot0 && b0)
      (requirePayload f (.enq (Machine.classOf f.id) (Machine.devNoOf f.id) f.len f.data))
  | 4 => requireUnused b0
      (requirePayload f (.enqr (Machine.classOf f.id) (Machine.devNoOf f.id) f.len f.data f.rslot))
  | 5 => requireUnused (Machine.classOf f.id == 0 && len0 && data0 && rslot0 && b0)
      (.ok (.setaddr (Machine.devNoOf f.id)))
  | 6 => requireUnused (id0 && len0 && data0 && rslot0 && b0) (.ok .enum)
  | 7 => requireUnused (id0 && len0 && data0 && rslot0) (.ok (.sweep (f.b == 1)))
  | 8 => requireUnused (id0 && data0 && rslot0 && b0) (.ok (.rdstat f.len))
  | 9 => requireUnused (id0 && len0 && data0 && rslot0 && b0) (.ok .rdpres)
  | 10 => requireUnused (id0 && len0 && data0 && b0) (.ok (.rdres f.rslot))
  | 11 => requireUnused (id0 && len0 && data0 && rslot0 && b0) (.ok .takeupd)
  | 12 => requireUnused (id0 && data0 && rslot0 && b0) (.ok (.rdreg f.len))
  | 13 => requireUnused (id0 && len0 && f.data.extractLsb' 6 58 == 0 && rslot0 && b0)
      (.ok (.clrerr (f.data.extractLsb' 0 6)))
  | 15 => requireUnused (id0 && len0 && data0 && rslot0 && b0) (.ok .reset)
  | _ => .error .opcode14

/-- The decoder of event words. -/
def decode (w : EventWord) : Except Reject Instr := decodeFields (EventFields.ofWord w)

/-! ## Second-level decode -/

/-- The ID29 row of a received frame (R110), with the frame's length and bytes. -/
def decodeRx (c : Config) (id : Ident) (len : Len) (data : Payload) : Instr :=
  let a := Machine.devNoOf id
  match Machine.rxKind c (Machine.classOf id) with
  | .status 0 => .rxfStatusVout a len data
  | .status 1 => .rxfStatusVbus a len data
  | .status 2 => .rxfStatusCurrent a len data
  | .status 3 => .rxfStatusTemp a len data
  | .status 4 => .rxfStatusPosition a len data
  | .status 5 => .rxfStatusSpeed a len data
  | .status 6 => .rxfStatusLimit a len data
  | .status 7 => .rxfStatusFault a len data
  | .fwver => .rxfFwver a len data
  | .enumReply => .rxfEnumReply a len data
  | .ack => .rxfAck a len data
  | .updack => .rxfUpdack a len data
  | .other => .rxfOther (Machine.classOf id) a len data

/-- The ID29 row of the frame just sent (R111). The first member of `UPD_LONG` is the download class, every
other member a send-data class (assumption 9). -/
def decodeTx (c : Config) (id : Ident) : Instr :=
  let a := Machine.devNoOf id
  let cls := Machine.classOf id
  match Machine.txKind c cls with
  | .enum => .txcEnum a
  | .noAck => .txcUntagged (Machine.apiOf id) a
  | .ackLong => if c.updLong.head? = some cls then .txcTaggedLongDl a else .txcTaggedLongSd cls a
  | .ack => .txcTagged cls a

/-- Whether a bare identifier is looked up among the rows of the frame just sent. The table gives an ID29 row no
bit for the direction: a class in `UPD_LONG`, which no received kind mentions, is read as sent, every other as
received (assumption 8). -/
def readAsSent (c : Config) (id : Ident) : Bool :=
  Machine.rxKind c (Machine.classOf id) == .other && c.updLong.contains (Machine.classOf id)

/-- The ID29 row of a bare identifier word: a frame without payload. -/
def decodeIdent (c : Config) (id : Ident) : Instr :=
  if readAsSent c id then decodeTx c id else decodeRx c id 0 0

/-- The host's question: the instruction of a table row's word. 104 bits are an event word (R106); up to 32 bits
are an ID29 word under the reference parameters, its bits from 29 on zero. -/
def decodeTableWord (nbits w : Nat) : Option Instr :=
  if nbits = 104 then (decode (BitVec.ofNat 104 w)).toOption
  else if nbits ≤ 32 ∧ w < 2 ^ 29 then some (decodeIdent Config.reference (BitVec.ofNat 29 w))
  else none

/-! ## The encoder -/

/-- The identifier of an ID29 row: the fixed class of its row with the device number (R101, R112); 0 for an
instruction of an EVT row. -/
def encodeIdent (c : Config) : Instr → Ident
  | .tick => 0
  | .txc => 0
  | .rxf _ _ _ => 0
  | .enq _ _ _ _ => 0
  | .enqr _ _ _ _ _ => 0
  | .setaddr _ => 0
  | .enum => 0
  | .sweep _ => 0
  | .rdstat _ => 0
  | .rdpres => 0
  | .rdres _ => 0
  | .takeupd => 0
  | .rdreg _ => 0
  | .clrerr _ => 0
  | .reserved14 _ => 0
  | .reset => 0
  | .rxfStatusVout a _ _ => Machine.identOf c.clsStatus[0] a
  | .rxfStatusVbus a _ _ => Machine.identOf c.clsStatus[1] a
  | .rxfStatusCurrent a _ _ => Machine.identOf c.clsStatus[2] a
  | .rxfStatusTemp a _ _ => Machine.identOf c.clsStatus[3] a
  | .rxfStatusPosition a _ _ => Machine.identOf c.clsStatus[4] a
  | .rxfStatusSpeed a _ _ => Machine.identOf c.clsStatus[5] a
  | .rxfStatusLimit a _ _ => Machine.identOf c.clsStatus[6] a
  | .rxfStatusFault a _ _ => Machine.identOf c.clsStatus[7] a
  | .rxfFwver a _ _ => Machine.identOf c.clsFwver a
  | .rxfEnumReply a _ _ => Machine.identOf c.clsEnumReply a
  | .rxfAck a _ _ => Machine.identOf c.clsAck a
  | .rxfUpdack a _ _ => Machine.identOf c.clsUpdack a
  | .rxfOther cls a _ _ => Machine.identOf cls a
  | .txcEnum a => Machine.identOf c.clsEnum a
  | .txcUntagged api a => Machine.identOf (api.setWidth 23) a
  | .txcTaggedLongDl a => Machine.identOf (c.updLong.headD 0) a
  | .txcTaggedLongSd cls a => Machine.identOf cls a
  | .txcTagged cls a => Machine.identOf cls a

/-- The fields of the event word of an instruction (R106). An ID29 row has the word of the event it refines:
RXF with the row's identifier and the frame's payload, or TXC. -/
def encodeFields (c : Config) (i : Instr) : EventFields :=
  match i with
  | .tick => ⟨0, 0, 0, 0, 0, 0⟩
  | .txc => ⟨1, 0, 0, 0, 0, 0⟩
  | .rxf id len data => ⟨2, id, len, data, 0, 0⟩
  | .enq cls a len data => ⟨3, Machine.identOf cls a, len, data, 0, 0⟩
  | .enqr cls a len data r => ⟨4, Machine.identOf cls a, len, data, r, 0⟩
  | .setaddr a => ⟨5, Machine.identOf 0 a, 0, 0, 0, 0⟩
  | .enum => ⟨6, 0, 0, 0, 0, 0⟩
  | .sweep b => ⟨7, 0, 0, 0, 0, BitVec.ofBool b⟩
  | .rdstat k => ⟨8, 0, k, 0, 0, 0⟩
  | .rdpres => ⟨9, 0, 0, 0, 0, 0⟩
  | .rdres r => ⟨10, 0, 0, 0, r, 0⟩
  | .takeupd => ⟨11, 0, 0, 0, 0, 0⟩
  | .rdreg n => ⟨12, 0, n, 0, 0, 0⟩
  | .clrerr m => ⟨13, 0, 0, m.setWidth 64, 0, 0⟩
  | .reserved14 rest => EventFields.ofWord ((14 : BitVec 4) ++ rest)
  | .reset => ⟨15, 0, 0, 0, 0, 0⟩
  | .rxfStatusVout _ len data => ⟨2, encodeIdent c i, len, data, 0, 0⟩
  | .rxfStatusVbus _ len data => ⟨2, encodeIdent c i, len, data, 0, 0⟩
  | .rxfStatusCurrent _ len data => ⟨2, encodeIdent c i, len, data, 0, 0⟩
  | .rxfStatusTemp _ len data => ⟨2, encodeIdent c i, len, data, 0, 0⟩
  | .rxfStatusPosition _ len data => ⟨2, encodeIdent c i, len, data, 0, 0⟩
  | .rxfStatusSpeed _ len data => ⟨2, encodeIdent c i, len, data, 0, 0⟩
  | .rxfStatusLimit _ len data => ⟨2, encodeIdent c i, len, data, 0, 0⟩
  | .rxfStatusFault _ len data => ⟨2, encodeIdent c i, len, data, 0, 0⟩
  | .rxfFwver _ len data => ⟨2, encodeIdent c i, len, data, 0, 0⟩
  | .rxfEnumReply _ len data => ⟨2, encodeIdent c i, len, data, 0, 0⟩
  | .rxfAck _ len data => ⟨2, encodeIdent c i, len, data, 0, 0⟩
  | .rxfUpdack _ len data => ⟨2, encodeIdent c i, len, data, 0, 0⟩
  | .rxfOther _ _ len data => ⟨2, encodeIdent c i, len, data, 0, 0⟩
  | .txcEnum _ => ⟨1, 0, 0, 0, 0, 0⟩
  | .txcUntagged _ _ => ⟨1, 0, 0, 0, 0, 0⟩
  | .txcTaggedLongDl _ => ⟨1, 0, 0, 0, 0, 0⟩
  | .txcTaggedLongSd _ _ => ⟨1, 0, 0, 0, 0, 0⟩
  | .txcTagged _ _ => ⟨1, 0, 0, 0, 0, 0⟩

/-- The event word of an instruction. -/
def encode (c : Config) (i : Instr) : EventWord := (encodeFields c i).toWord

end Sys2Proof
end

