-- ==== Sys2Proof/Machine/Present.lean ====
section
/-! DEFINITION. How the outside world presents an event to the engine (R240, R241): what stands behind
`State.withFetchWord`. -/

namespace Sys2Proof.Machine

/-- `s` with one event word presented before everything else, at an instant of its own. -/
def present (w : EventWord) (s : State) : State := { s with input := [w] :: s.input }

/-- `s` as it is while a frame with this identifier and no payload is being sent: the head of the ring carries
it, it stands in the transmit slot and the engine is in WaitForSend (R171). A TXC row is selected by that head. -/
def sending (id : Ident) (s : State) : State :=
  let e := bareEntry (devNoOf id) (classOf id)
  { writeEntry s.rd e s with
    wr := (s.rd + 1) % s.cfg.n
    state := .waitForSend
    cnt := s.cfg.tSend
    txslot := ⟨true, frameOf e⟩ }

/-- The state in which the very next step runs the instruction of a table row's word (assumption 8): an event
word is presented; a bare identifier is presented as a received frame, or, where it is read as sent, as the TXC
of that frame. -/
def presentTableWord (s : State) (nbits w : Nat) : State :=
  if nbits = 104 then present (BitVec.ofNat 104 w) s
  else
    let id := BitVec.ofNat 29 w
    if readAsSent s.cfg id then present (encode s.cfg .txc) (sending id s)
    else present (encode s.cfg (.rxf id 0 0)) s

end Sys2Proof.Machine
end

