-- ==== Sys2Proof/Machine/Step.lean ====
section
/-! DEFINITION. One step: take the next presented event word, decode it, run it. -/

namespace Sys2Proof.Machine

/-- One step of the machine. With nothing presented the engine does nothing: "the first thing the engine does
after reset is whatever the first event makes it do" (R52, R254). A word that spells no event is refused
(R124). -/
def step (s : State) : Host.Outcome State Fault Refusal :=
  match fetch s with
  | none => .next s
  | some (w, s') =>
    match decode w with
    | .ok i => exec i s'
    | .error why => .refused (.reservedWord why)

/-- `s` with the instruction of a table row's word as the very next one (assumption 6). -/
def State.withFetchWord (s : State) (nbits w : Nat) : State := presentTableWord s nbits w

end Sys2Proof.Machine
end

