-- ==== Sys2Proof/Machine/Pseudo.lean ====
section
/-! DEFINITION. Runs of events, and the engine side of the pseudo-operations of 30_encoding.md R128 to R133: the
events each one issues. The waiting between them is host software and out of scope (00_scope.md R5 (c)). -/

namespace Sys2Proof.Machine

/-- The events of a list one after the other (R9, R78), up to the first refusal. -/
def runEvents : List Instr → State → Host.Outcome State Fault Refusal
  | [], s => .next s
  | i :: is, s =>
    match exec i s with
    | .next t => runEvents is t
    | .fault r => .fault r
    | .refused r => .refused r

/-- The pseudo-operations. -/
inductive PseudoOp where
  /-- `TICKS n` (R128). -/
  | ticks (n : Nat)
  /-- `setTargetAddress(a)` (R129). -/
  | setTargetAddress (a : DevNo)
  /-- `enumerate()` (R130). -/
  | enumerate
  /-- `readParameter(class)` into slot `r` (R131). -/
  | readParameter (cls : Cls) (r : SlotIx)
  /-- `assign(a)` (R132). The rule gives the claim command no class (it is the platform's) and neither a length
  nor bytes: that all three are operands is the model's choice, DESIGN CHOICE, assumption 19. -/
  | assign (cls : Cls) (a : DevNo) (len : Len) (data : Payload)
  /-- `sweepStart` (R133). -/
  | sweepStart
  /-- `updateStep` with one command of a class in `UPD_LONG` (R133). The rule gives the command no destination:
  that it is an operand, and not `TARGET`, is the model's choice, DESIGN CHOICE, assumption 19. -/
  | updateStep (cls : Cls) (a : DevNo) (len : Len) (data : Payload)
  deriving DecidableEq, Repr

/-- The events a pseudo-operation issues before the host waits. -/
def PseudoOp.opening (p : PseudoOp) (s : State) : List Instr :=
  match p with
  | .ticks n => List.replicate n .tick
  | .setTargetAddress a => [.setaddr a]
  | .enumerate => [.enum]
  | .readParameter cls r => [.enqr cls s.target 0 0 r]
  | .assign cls a len data => [.enq cls a len data]
  | .sweepStart => [.sweep true, .enq s.cfg.clsStatus[0] s.target 0 0]
  | .updateStep cls a len data => [.takeupd, .enq cls a len data]

/-- The event the host repeats while it waits, if the pseudo-operation waits on the engine. -/
def PseudoOp.poll : PseudoOp → Option Instr
  | .ticks _ => none
  | .setTargetAddress _ => some (.rdstat 8)
  | .enumerate => some (.rdreg 6)
  | .readParameter _ r => some (.rdres r)
  | .assign _ _ _ _ => none
  | .sweepStart => none
  | .updateStep _ _ _ _ => some .takeupd

/-- The events that end the pseudo-operation after the wait. -/
def PseudoOp.closing : PseudoOp → List Instr
  | .ticks _ => []
  | .setTargetAddress _ => []
  | .enumerate => [.rdpres]
  | .readParameter _ _ => []
  | .assign _ _ _ _ => []
  | .sweepStart => []
  | .updateStep _ _ _ _ => []

end Sys2Proof.Machine
end

