-- ==== Sys2Proof/Safety.lean ====
section
/-! DEFINITION. The terms the statements use: the queue as a list, the invariants of 10_state.md R51, which event
an instruction is and in which context it is issued (R6, R107, R248), the table's masks, and the host's and the
platform's duties (70_reset_and_hazards.md) as named premises, none of which the machine checks (R280). -/

namespace Sys2Proof.Machine

/-! ## Events and contexts -/

/-- The sixteen EVT rows (R107). -/
inductive Event where
  | tick | txc | rxf | enq | enqr | setaddr | enum | sweep | rdstat | rdpres | rdres | takeupd | rdreg | clrerr
  | reserved14 | reset
  deriving DecidableEq, Repr

/-- The event an instruction is, or refines. -/
def eventOf : Instr → Event
  | .tick => .tick
  | .txc => .txc
  | .rxf _ _ _ => .rxf
  | .enq _ _ _ _ => .enq
  | .enqr _ _ _ _ _ => .enqr
  | .setaddr _ => .setaddr
  | .enum => .enum
  | .sweep _ => .sweep
  | .rdstat _ => .rdstat
  | .rdpres => .rdpres
  | .rdres _ => .rdres
  | .takeupd => .takeupd
  | .rdreg _ => .rdreg
  | .clrerr _ => .clrerr
  | .reserved14 _ => .reserved14
  | .reset => .reset
  | .rxfStatusVout _ _ _ => .rxf
  | .rxfStatusVbus _ _ _ => .rxf
  | .rxfStatusCurrent _ _ _ => .rxf
  | .rxfStatusTemp _ _ _ => .rxf
  | .rxfStatusPosition _ _ _ => .rxf
  | .rxfStatusSpeed _ _ _ => .rxf
  | .rxfStatusLimit _ _ _ => .rxf
  | .rxfStatusFault _ _ _ => .rxf
  | .rxfFwver _ _ _ => .rxf
  | .rxfEnumReply _ _ _ => .rxf
  | .rxfAck _ _ _ => .rxf
  | .rxfUpdack _ _ _ => .rxf
  | .rxfOther _ _ _ _ => .rxf
  | .txcEnum _ => .txc
  | .txcUntagged _ _ => .txc
  | .txcTaggedLongDl _ => .txc
  | .txcTaggedLongSd _ _ => .txc
  | .txcTagged _ _ => .txc

/-- The context column of R107 (R248). -/
inductive Context where
  | foreground | interrupt | any | none
  deriving DecidableEq, Repr

/-- The context an event is issued in (R107, R248). -/
def Event.context : Event → Context
  | .tick => .interrupt
  | .txc => .interrupt
  | .rxf => .interrupt
  | .enq => .foreground
  | .enqr => .foreground
  | .setaddr => .foreground
  | .enum => .foreground
  | .sweep => .foreground
  | .rdstat => .foreground
  | .rdpres => .foreground
  | .rdres => .foreground
  | .takeupd => .foreground
  | .rdreg => .foreground
  | .clrerr => .foreground
  | .reserved14 => .none
  | .reset => .any

/-- The mask column of the opcode table's EVT rows, by `OP`: the bits an event of that row fixes. -/
def tableMask (op : Nat) : EventWord :=
  match op with
  | 0 => 0xFFFFFFFFFFFFFFFFFFFFFFFFFF
  | 1 => 0xFFFFFFFFFFFFFFFFFFFFFFFFFF
  | 2 => 0xF0000000000000000000000007
  | 3 => 0xF0000000000000000000000007
  | 4 => 0xF0000000000000000000000001
  | 5 => 0xFFFFFFE07FFFFFFFFFFFFFFFFF
  | 6 => 0xFFFFFFFFFFFFFFFFFFFFFFFFFF
  | 7 => 0xFFFFFFFFFFFFFFFFFFFFFFFFFE
  | 8 => 0xFFFFFFFF87FFFFFFFFFFFFFFFF
  | 9 => 0xFFFFFFFFFFFFFFFFFFFFFFFFFF
  | 10 => 0xFFFFFFFFFFFFFFFFFFFFFFFFF9
  | 11 => 0xFFFFFFFFFFFFFFFFFFFFFFFFFF
  | 12 => 0xFFFFFFFF87FFFFFFFFFFFFFFFF
  | 13 => 0xFFFFFFFFFFFFFFFFFFFFFFFE07
  | 14 => 0xF0000000000000000000000000
  | _ => 0xFFFFFFFFFFFFFFFFFFFFFFFFFF

/-- The place of a word among those presented at the same instant, by `OP` alone (R242). The places of RESET and of
the words that spell no event are the model's choice (assumption 7). -/
def instantRank (w : EventWord) : Nat :=
  if w.extractLsb' 100 4 = 1 then 0
  else if w.extractLsb' 100 4 = 2 then 1
  else if w.extractLsb' 100 4 = 0 then 2
  else 3

/-- The status row of field `k` (R110 line 1). -/
def statusRow (k : Fin 8) (a : DevNo) (len : Len) (data : Payload) : Instr :=
  match k with
  | 0 => .rxfStatusVout a len data
  | 1 => .rxfStatusVbus a len data
  | 2 => .rxfStatusCurrent a len data
  | 3 => .rxfStatusTemp a len data
  | 4 => .rxfStatusPosition a len data
  | 5 => .rxfStatusSpeed a len data
  | 6 => .rxfStatusLimit a len data
  | 7 => .rxfStatusFault a len data

/-- The length and bytes of a received frame's row. -/
def framePayload : Instr → Option (Len × Payload)
  | .rxfStatusVout _ len data => some (len, data)
  | .rxfStatusVbus _ len data => some (len, data)
  | .rxfStatusCurrent _ len data => some (len, data)
  | .rxfStatusTemp _ len data => some (len, data)
  | .rxfStatusPosition _ len data => some (len, data)
  | .rxfStatusSpeed _ len data => some (len, data)
  | .rxfStatusLimit _ len data => some (len, data)
  | .rxfStatusFault _ len data => some (len, data)
  | .rxfFwver _ len data => some (len, data)
  | .rxfEnumReply _ len data => some (len, data)
  | .rxfAck _ len data => some (len, data)
  | .rxfUpdack _ len data => some (len, data)
  | .rxfOther _ _ len data => some (len, data)
  | _ => none

/-- The five rows of the frame just sent. -/
def isSentRow (i : Instr) : Bool := eventOf i == .txc && i != .txc

/-- A received enumeration reply of device `a` that is not dropped for its length, as an event or as its row. -/
def isEnumReplyFrom (c : Config) (a : DevNo) (i : Instr) : Bool :=
  match i with
  | .rxf id len _ => classOf id == c.clsEnumReply && devNoOf id == a && !lenReserved len
  | .rxfEnumReply b len _ => b == a && !lenReserved len
  | _ => false

/-! ## The queue as a list -/

/-- The valid entries, at the indices `RD, RD+1, ..., WR-1` taken mod `N`, oldest first (R45). -/
def liveEntries (s : State) : List QEntry :=
  (List.range (count s)).map fun j => readEntry s ((s.rd + j) % s.cfg.n)

/-- The result slots after the entry `e` was retired with the slot contents `v` (R172). -/
def slotsAfter (e : QEntry) (v : ResSlot) (res : Vector ResSlot 4) : Vector ResSlot 4 :=
  if e.rv then res.set e.rslot.toFin v else res

/-- The StatusField file with the field of class `cls`, if there is one, marked invalid (R173). -/
def fieldsAfter (c : Config) (cls : Cls) (field : Vector StatusField 9) : Vector StatusField 9 :=
  match fieldOf c cls with
  | some k => field.set k ⟨field[k].value, false⟩
  | none => field

/-- The ring's indices and its storage fit the parameter `N`. -/
structure RingOk (s : State) : Prop where
  size : 2 ≤ s.cfg.n
  rd_lt : s.rd < s.cfg.n
  wr_lt : s.wr < s.cfg.n
  ring_wf : Memory.wf s.cfg.n s.q

/-! ## The invariants -/

/-- The invariants of R51, I1 to I9 (I6 holds by the shape of `STATE`: a single register, and one transmit
slot), with the ones they need: the parameters' constraints, the bounds of `CNT`, and what the transmit slot and
the slots hold. -/
structure Inv (s : State) : Prop where
  /-- The constraints of R10 and R113. -/
  config : s.cfg.Valid
  /-- I1. -/
  ring : RingOk s
  /-- I2. -/
  busy_nonempty : s.state ≠ .idle → s.wr ≠ s.rd
  /-- I3. -/
  slot_iff : s.txslot.v = true ↔ s.state = .waitForSend
  /-- I4. -/
  busy_counts : s.state ≠ .idle → 1 ≤ s.cnt
  /-- I5. -/
  no_idle_work : ¬ (s.state = .idle ∧ s.wr ≠ s.rd ∧ s.cnt = 0)
  /-- I7, first half. -/
  pending_of_live : ∀ e ∈ liveEntries s, e.rv = true → (readSlot s e.rslot).st = .pending
  /-- I7, second half. -/
  live_slots_distinct : (liveEntries s).Pairwise fun e f => e.rv = true → f.rv = true → e.rslot ≠ f.rslot
  /-- R141 (a): a slot is never PENDING without an entry that will overwrite it. -/
  live_of_pending : ∀ r : SlotIx, (readSlot s r).st = .pending → ∃ e ∈ liveEntries s, e.rv = true ∧ e.rslot = r
  /-- I8. -/
  pres_zero : s.pres.getLsbD 0 = false
  /-- I9. -/
  target_ne : s.target ≠ 0
  /-- R121: a reserved length is never stored. -/
  live_len : ∀ e ∈ liveEntries s, e.len.toNat ≤ 8
  /-- R122: a result reference names an existing slot. -/
  live_rslot : ∀ e ∈ liveEntries s, e.rv = true → e.rslot.toNat < s.cfg.r
  /-- The frame in the transmit slot is the head's (R31, R171). -/
  slot_frame : s.txslot.v = true → s.txslot.frame = frameOf (head s)
  /-- R247: what `CNT` can have been loaded with, by `STATE`. -/
  cnt_send : s.state = .waitForSend → s.cnt ≤ s.cfg.tSend
  cnt_ack : s.state = .waitForAck → s.cnt ≤ s.cfg.tUpdate
  cnt_idle : s.state = .idle → s.cnt ≤ s.cfg.tSettle

/-! ## Reset -/

/-- The table of R52, for the parameters the engine was built with. The ring's elements and the payload of
`TXSLOT` are unspecified there and have no row here. -/
structure ResetTable (s : State) : Prop where
  state : s.state = .idle
  cnt : s.cnt = 0
  rd : s.rd = 0
  wr : s.wr = 0
  target : s.target = s.cfg.targetReset
  sweepEn : s.sweepEn = true
  updack : s.updack = false
  err : s.err = 0
  field : ∀ k : Fin 9, s.field[k] = ⟨0, false⟩
  pres : s.pres = 0
  res : ∀ r : SlotIx, readSlot s r = ⟨.free, 0, 0⟩
  txslot_v : s.txslot.v = false

/-! ## Duties of the host and the platform, as premises (R280)

One premise for each duty of R281 to R296, and those of R252 and R253 on the adapter. A claim that needs a duty takes
it as a hypothesis (Laws/Duties.lean); the machine checks none of them. What a duty says of a time, a lock or a value
outside the engine is an argument of its premise. -/

/-- Kind, device number and length of a received frame, as an event or as its row. -/
def receivedFrame (c : Config) : Instr → Option (RxKind × DevNo × Len)
  | .rxf id len _ => some (rxKind c (classOf id), devNoOf id, len)
  | .rxfStatusVout a len _ => some (.status 0, a, len)
  | .rxfStatusVbus a len _ => some (.status 1, a, len)
  | .rxfStatusCurrent a len _ => some (.status 2, a, len)
  | .rxfStatusTemp a len _ => some (.status 3, a, len)
  | .rxfStatusPosition a len _ => some (.status 4, a, len)
  | .rxfStatusSpeed a len _ => some (.status 5, a, len)
  | .rxfStatusLimit a len _ => some (.status 6, a, len)
  | .rxfStatusFault a len _ => some (.status 7, a, len)
  | .rxfFwver a len _ => some (.fwver, a, len)
  | .rxfEnumReply a len _ => some (.enumReply, a, len)
  | .rxfAck a len _ => some (.ack, a, len)
  | .rxfUpdack a len _ => some (.updack, a, len)
  | .rxfOther _ a len _ => some (.other, a, len)
  | _ => none

/-- The number of TX_START the engine has emitted: the ordinal of the frame handed out last. -/
def launches (s : State) : Nat := (s.busOut.filter fun o => match o with
  | .txStart _ => true
  | .txAbort => false).length

/-- R252, R253, R290: a TXC reports that the adapter has sent one frame, the `sent`-th the engine handed out. It is
presented only while a frame is outstanding, and for that very frame: neither for one that was aborted meanwhile,
whose successor may be outstanding by now, nor a second time for one. -/
def TxcWhileSending (s : State) (i : Instr) (sent : Nat) : Prop :=
  eventOf i = .txc → s.txslot.v = true ∧ sent = launches s

/-- The identifier of a received frame, as an event or as its row. -/
def receivedIdent (c : Config) (i : Instr) : Ident :=
  match i with
  | .rxf id _ _ => id
  | row => encodeIdent c row

/-- R252: no frame that answers the command being sent is presented before its TXC: a frame of its class or an
acknowledgement from the device it is addressed to (from any, for a broadcast), or, for an enumeration request, an
enumeration reply. -/
def ReplyAfterTxc (s : State) (i : Instr) : Prop :=
  eventOf i = .rxf → s.state = .waitForSend →
    let cls := classOf (receivedIdent s.cfg i)
    let a := devNoOf (receivedIdent s.cfg i)
    ((head s).addr = 0 ∨ a = (head s).addr →
      cls ≠ (head s).cls ∧ cls ≠ s.cfg.clsAck ∧ cls ≠ s.cfg.clsUpdack) ∧
    ((head s).cls = s.cfg.clsEnum → cls ≠ s.cfg.clsEnumReply)

/-- R281: every event is issued in the context it belongs to; no host operation in the interrupt context. -/
def IssuedInContext (issued : List (Context × Instr)) : Prop :=
  ∀ p ∈ issued, p.1 = (eventOf p.2).context ∨ (eventOf p.2).context = .any

/-- R281: the host's waiting holds back none of the TICK, TXC and RXF that were raised meanwhile. -/
def NothingHeldBack (raised presented : List Instr) : Prop :=
  presented.filter (fun i => (eventOf i).context == .interrupt) = raised

/-- R282: a lock the host takes covers one event at most. -/
def LockReleased (sections : List (List Instr)) : Prop := ∀ events ∈ sections, events.length ≤ 1

/-- R283: slot `r` belongs to the host. -/
def HostOwnsSlot (s : State) (r : SlotIx) : Prop := (readSlot s r).st ≠ .pending

/-- R284: `PRES` may be trusted: the window has closed and no enumeration request is waiting. -/
def PresTrusted (s : State) : Prop :=
  settling s = false ∧ ∀ e ∈ liveEntries s, e.cls ≠ s.cfg.clsEnum

/-- R285: no well-formed status frame comes but as the answer to the poll in flight. -/
def NoUnsolicitedStatus (s : State) (i : Instr) : Prop :=
  ∀ (k : Fin 8) a len, receivedFrame s.cfg i = some (.status k, a, len) →
    len.toNat = s.cfg.expLen[k.castSucc] → s.state = .waitForAck ∧ (head s).cls = s.cfg.clsStatus[k]

/-- R285: a sweep may be started: every field has gone invalid, or nothing is queued and the engine is Idle. -/
def SweepStopped (s : State) : Prop :=
  (∀ k : Fin 9, s.field[k].valid = false) ∨ (s.state = .idle ∧ count s = 0)

/-- R286: the queue takes one more entry. -/
def HasRoom (s : State) : Prop := isFull s = false

/-- R286: the host issues again a SETADDR or ENUM that returned QueueFull. -/
def ReissuesWhenFull (results : List (Instr × HostResult)) : Prop :=
  ∀ before i after, results = before ++ (i, .queueFull) :: after → eventOf i = .setaddr ∨ eventOf i = .enum →
    ∃ r, (i, r) ∈ after

/-- R287: status frames come from the device monitored now, not from one monitored before. -/
def StatusFromTarget (s : State) (i : Instr) : Prop :=
  ∀ kind a len, receivedFrame s.cfg i = some (kind, a, len) → (∃ k, kind = .status k) ∨ kind = .fwver →
    a = s.target

/-- R288: the host waits long enough for everything queued, the settling windows among it (the bound of R187 (c)). -/
def WaitCoversWindows (s : State) (ticks : Nat) : Prop :=
  (if settling s then s.cnt else 0) + count s * (s.cfg.tSend + max s.cfg.tAck s.cfg.tUpdate) +
    (liveEntries s).countP (fun e => e.cls == s.cfg.clsEnum) * s.cfg.tSettle ≤ ticks

/-- R289: the host polls again, so that a sweep that ended is restarted, within every `n` TICKs. -/
def SweepRestarts (c : Config) (target : DevNo) (n : Nat) (is : List Instr) : Prop :=
  ∀ before part after, is = before ++ part ++ after → n ≤ part.count .tick →
    .enq c.clsStatus[0] target 0 0 ∈ part

/-- R289: a host that does not restart the sweep uses the chained fields only while all eight are valid. -/
def SweepFresh (s : State) : Prop := ∀ k : Fin 8, s.field[k.castSucc].valid = true

/-- R291: what a host's wait loop takes a slot's state for: `none`, wait on; `true`, an answer; `false`, a failure.
FREE is a failure. -/
def WaitAccepts (outcome : SlotState → Option Bool) : Prop :=
  outcome .pending = none ∧ outcome .done = some true ∧ outcome .timeout = some false ∧
  outcome .free = some false

/-- R292: no stale update-ack. -/
def NoStaleUpdack (s : State) : Prop := s.updack = false

/-- R292: the only master with bootloader commands on the bus is this one: a bootloader acknowledgement answers such a
command in flight. -/
def OnlyBootloaderMaster (s : State) (i : Instr) : Prop :=
  ∀ a len, receivedFrame s.cfg i = some (.updack, a, len) → len.toNat ≤ 8 →
    s.state = .waitForAck ∧ (head s).cls ∈ s.cfg.updLong

/-- R293: no foreign acknowledgement: one that meets WaitForAck comes from the device addressed, for a command that
neither reads into a slot nor polls a field. -/
def AckIsForHead (s : State) (i : Instr) : Prop :=
  ∀ kind a len, receivedFrame s.cfg i = some (kind, a, len) → kind = .ack ∨ kind = .updack → len.toNat ≤ 8 →
    s.state = .waitForAck →
    ((head s).addr = 0 ∨ a = (head s).addr) ∧ (head s).rv = false ∧ fieldOf s.cfg (head s).cls = none

/-- R294: the platform's `EXPLEN` agrees with the peers' firmware. -/
def ExpLenAgrees (c : Config) (i : Instr) : Prop :=
  ∀ kind a len, receivedFrame c i = some (kind, a, len) →
    (∀ k : Fin 8, kind = .status k → len.toNat = c.expLen[k.castSucc]) ∧
    (kind = .fwver → len.toNat = c.expLen[(8 : Fin 9)])

/-- R295: the host reads each field with the scale and the signedness the peer wrote it with. -/
def ScalesAgree {α : Type} (c : Config) (write : Fin 9 → α → Payload) (read : Fin 9 → BitVec 32 → α) : Prop :=
  ∀ k x, read k (BitVec.ofNat 32 (le (write k x) c.expLen[k])) = x

/-- R296: the host's wait for the confirmation of `assign` outlives the claim command inside the engine. -/
def ClaimWaitIsLong (c : Config) (ticks : Nat) : Prop := c.tSend + max c.tAck c.tUpdate < ticks

/-- R246: TICK is presented at least `n` times among these events. -/
def TicksRecur (n : Nat) (is : List Instr) : Prop := n ≤ is.count .tick

end Sys2Proof.Machine
end

