-- ==== Sys2Proof/Certificates/Slice0/Obligations.lean ====
section
/-! DEFINITION. The statements for the provers. -/

open Sys2Proof Sys2Proof.Machine

/-! ## Encodings -/

/-- Every well-formed event is read back from its own word (R106, R107). -/
def Obligations.DecodeInvertsEncode : Prop :=
  ∀ (c : Config) (i : Instr), i.isEvent = true → i.wellFormed c = true → decode (encode c i) = .ok i

/-- Every word the decoder accepts is the one word of the event it reads, and that event is well-formed (R106,
R107, R124). -/
def Obligations.EncodeInvertsDecode : Prop :=
  ∀ (c : Config) (w : EventWord) (i : Instr), decode w = .ok i →
    i.isEvent = true ∧ i.wellFormed c = true ∧ encode c i = w

/-- R124: the decoder rejects exactly the words with `OP = 14`, the words with a non-zero bit in a field their
event does not use (the opcode table's mask), and the RXF, ENQ and ENQR words with `LEN <= 8` and a non-zero
payload byte at a position `>= LEN`; and a step on such a word is refused. -/
def Obligations.ReservedWordsAreRejected : Prop :=
  ∀ w : EventWord,
    let op := w.extractLsb' 100 4
    let len := (w.extractLsb' 67 4).toNat
    ((∃ why, decode w = .error why) ↔
      (op = 14 ∨ w &&& tableMask op.toNat ≠ (op.setWidth 104) <<< 100 ∨
        ((op = 2 ∨ op = 3 ∨ op = 4) ∧ len ≤ 8 ∧ ∃ i, len ≤ i ∧ i < 8 ∧ w.extractLsb' (3 + 8 * i) 8 ≠ 0))) ∧
    ∀ (s : State) (why : Reject), decode w = .error why → step (present w s) = .refused (.reservedWord why)

/-- The second-level decode reads every well-formed ID29 row back from its identifier: of a received frame (R110)
under parameters that meet their constraints, and of the frame just sent (R111) under any (R112). Which members of
`UPD_LONG` are the download row and which the send-data row is the model's choice (assumption 9). -/
def Obligations.SecondLevelRowsRoundTrip : Prop :=
  (∀ (c : Config) (i : Instr) (len : Len) (data : Payload), c.Valid → i.wellFormed c = true →
    framePayload i = some (len, data) → decodeRx c (encodeIdent c i) len data = i) ∧
  ∀ (c : Config) (i : Instr), i.wellFormed c = true → isSentRow i = true → decodeTx c (encodeIdent c i) = i

/-- Words written out from R106 (95_test_vectors.md section 5) decode to the events they stand for. -/
def Obligations.SpecWordsDecode : Prop :=
  decode 0x20808202900000000000006400 = .ok (.rxf 0x1010405 2 0x0C80) ∧
  decode 0x30808662C04038302820181008 = .ok (.enq 0x040433 5 8 0x0807060504030201) ∧
  decode 0x40000040000000000000000004 = .ok (.enqr 0x000002 0 0 0 2) ∧
  decode 0x50000004800000000000000000 = .ok (.setaddr 9) ∧
  decode 0xC0000000300000000000000000 = .ok (.rdreg 6) ∧
  decode 0xD0000000000000000000000020 = .ok (.clrerr 4) ∧
  decode 0xE0000000000000000000000000 = .error .opcode14

/-- R101: the identifier of a queue entry has its class in `id[28:6]` and its device number in `id[5:0]` and
nothing else; disassembly takes them out again. -/
def Obligations.IdentifierAssembly : Prop :=
  (∀ e : QEntry, (frameOf e).id.extractLsb' 6 23 = e.cls ∧ (frameOf e).id.extractLsb' 0 6 = e.addr ∧
    (frameOf e).id.toNat = e.cls.toNat * 64 + e.addr.toNat) ∧
  ∀ id : Ident, classOf id = id.extractLsb' 6 23 ∧ devNoOf id = id.extractLsb' 0 6 ∧
    identOf (classOf id) (devNoOf id) = id

/-- R71 and R72: a status payload is the little-endian number of its first `len` bytes. The byte order is
PRESUMED by the spec itself (assumption 13). -/
def Obligations.StatusValueIsLittleEndian : Prop :=
  ∀ (data : Payload) (len : Len), len.toNat ≤ 4 → (decodeValue len data).toNat = data.toNat % 256 ^ len.toNat

/-- R174: `field_of(cls)` is `k` exactly for the class of status field `k`, 8 exactly for `CLS_FWVER`, and none
for every other class. -/
def Obligations.FieldOfClass : Prop :=
  ∀ (c : Config) (cls : Cls), c.Valid →
    (∀ k : Fin 8, fieldOf c cls = some k.castSucc ↔ cls = c.clsStatus[k]) ∧
    (fieldOf c cls = some 8 ↔ cls = c.clsFwver) ∧
    (fieldOf c cls = none ↔ (∀ k : Fin 8, cls ≠ c.clsStatus[k]) ∧ cls ≠ c.clsFwver)

/-! ## The two levels of decoding, and the step -/

/-- RXF runs the row that the second-level decode of the received identifier names (R110, R200), and TXC in
WaitForSend the row that the decode of the head's identifier names (R111, R181). Which members of `UPD_LONG` are
the download row and which the send-data row is the model's choice (assumption 9). -/
def Obligations.EventsRunTheirSecondLevelRow : Prop :=
  (∀ (s : State) (id : Ident) (len : Len) (data : Payload),
    exec (.rxf id len data) s = exec (decodeRx s.cfg id len data) s) ∧
  ∀ s : State, s.state = .waitForSend → exec .txc s = exec (decodeTx s.cfg (frameOf (head s)).id) s

/-- A step takes one presented word, decodes it and runs what it decodes to; with nothing presented nothing
happens (R9, R52). That the presented words stand in the state is the model's choice (assumption 6). -/
def Obligations.StepRunsDecodedInstruction : Prop :=
  ∀ s : State,
    (fetch s = none → step s = .next s) ∧
    (∀ (w : EventWord) (s' : State), fetch s = some (w, s') →
      s' = { s with input := s'.input } ∧
      (∀ i, decode w = .ok i → step s = exec i s') ∧
      ∀ why, decode w = .error why → step s = .refused (.reservedWord why))

/-- R242: of the events presented at one instant TXC is taken before RXF, RXF before TICK, TICK before the host
operations, equal ones in the order presented; the others stay; an instant with none left is passed over. That
RESET takes the host's place, that a word that spells no event takes the place of its `OP`, and that equal ones keep
their order, is the model's choice (assumption 7). -/
def Obligations.SimultaneousEventsInFixedOrder : Prop :=
  ∀ (s : State) (now : List EventWord) (later : List (List EventWord)), s.input = now :: later →
    (now = [] → fetch s = fetch { s with input := later }) ∧
    (now ≠ [] → ∃ before w after, now = before ++ w :: after ∧
      fetch s = some (w, { s with input := (before ++ after) :: later }) ∧
      (∀ v ∈ before, instantRank w < instantRank v) ∧ ∀ v ∈ after, instantRank w ≤ instantRank v)

/-- Every event but the reserved word has exactly one next state and at most one result (R13). -/
def Obligations.EveryEventHasOneNextState : Prop :=
  ∀ (s : State) (i : Instr), eventOf i ≠ .reserved14 →
    ∃ t rs, exec i s = .next t ∧ t.hostOut = s.hostOut ++ rs ∧ rs.length ≤ 1 ∧
      (rs.length = 1 ↔ (eventOf i).context = .foreground)

/-- R124: the reserved opcode is no event; it is refused in every state. -/
def Obligations.ReservedOpcodeIsRefused : Prop :=
  ∀ (s : State) (rest : BitVec 100), exec (.reserved14 rest) s = .refused (.reservedWord .opcode14)

/-! ## Reset and the invariants -/

/-- R52: the state right after hardware reset and the state right after a RESET event are those of the table,
whatever came before; the event emits nothing, returns nothing and launches nothing (R151). That it keeps the
parameters, the presented events and the records of outputs and results is the model's choice (assumptions 1, 6
and 10). -/
def Obligations.ResetTableHolds : Prop :=
  (∀ c : Config, ResetTable (State.resetOf c)) ∧
  ∀ s : State, ∃ t, exec .reset s = .next t ∧ ResetTable t ∧ t.cfg = s.cfg ∧
    t.input = s.input ∧ t.busOut = s.busOut ∧ t.hostOut = s.hostOut

/-- The invariants of R51 hold right after reset, under every parameters that meet their constraints, the
reference parameters among them, whose `T_ACK` and `T_UPDATE` are the model's choice (assumption 2). -/
def Obligations.InvariantAtReset : Prop :=
  (∀ c : Config, c.Valid → Inv (State.resetOf c)) ∧ Config.reference.Valid ∧ Inv State.reset

/-- R51: every step keeps the invariants. -/
def Obligations.StepKeepsInvariant : Prop :=
  ∀ s t : State, Inv s → step s = .next t → Inv t

/-! ## The ring -/

/-- R76 in a ring whose indices fit: `count()` is 0 exactly when empty, `N - 1` exactly when full, and never
more. -/
def Obligations.RingPredicates : Prop :=
  ∀ s : State, RingOk s →
    (isEmpty s = true ↔ count s = 0) ∧ (isFull s = true ↔ count s = s.cfg.n - 1) ∧ count s ≤ s.cfg.n - 1 ∧
    (liveEntries s).length = count s ∧ (isEmpty s = false → (liveEntries s).head? = some (head s))

/-- R77: `push` declines exactly when the ring is full; otherwise it stores the entry in the element `WR` names,
outside the valid range, advances `WR`, and changes nothing else; the queue gains that entry at its end. -/
def Obligations.PushAppendsToTheQueue : Prop :=
  ∀ (s : State) (e : QEntry), RingOk s →
    (push e s = none ↔ (s.wr + 1) % s.cfg.n = s.rd) ∧
    ∀ t, push e s = some t →
      t = { s with q := s.q.set s.wr e, wr := (s.wr + 1) % s.cfg.n } ∧ readEntry t s.wr = e ∧
      liveEntries t = liveEntries s ++ [e] ∧ (∀ j, j < count s → (s.rd + j) % s.cfg.n ≠ s.wr)

/-- R172: retirement drops the oldest entry of the queue, writes the slot it names, and changes nothing else. -/
def Obligations.RetireDropsTheHead : Prop :=
  ∀ (s : State) (ok : Bool) (len : Len) (data : Payload), RingOk s → s.wr ≠ s.rd →
    liveEntries (retire ok len data s) = (liveEntries s).tail ∧
    retire ok len data s = { s with
      rd := (s.rd + 1) % s.cfg.n
      res := slotsAfter (head s) (if ok then ⟨.done, len, data⟩ else ⟨.timeout, 0, 0⟩) s.res }

/-- The ring is a first-in first-out queue: one event retires at most the oldest entry, only while one is in
flight, and adds at most one at the end; no other entry is lost, moved or overwritten (R78, R81, R189). -/
def Obligations.QueueIsFirstInFirstOut : Prop :=
  ∀ (s t : State) (i : Instr), Inv s → i ≠ .reset → exec i s = .next t →
    ∃ (k : Nat) (new : List QEntry), k ≤ 1 ∧ new.length ≤ 1 ∧ (k = 1 → s.state ≠ .idle) ∧
      liveEntries t = (liveEntries s).drop k ++ new ∧
      t.rd = (s.rd + k) % s.cfg.n ∧ t.wr = (s.wr + new.length) % s.cfg.n ∧
      (∀ a : Nat, a ≠ s.wr → readEntry t a = readEntry s a)

/-! ## The scheduler -/

/-- R171: an idle engine with work and no countdown launches the head; otherwise `dispatch()` does nothing. -/
def Obligations.DispatchLaunchesTheHead : Prop :=
  ∀ s : State,
    (s.state = .idle → s.wr ≠ s.rd → s.cnt = 0 →
      dispatch s = { s with
        txslot := ⟨true, ⟨(head s).cls ++ (head s).addr, (head s).len, (head s).data⟩⟩
        busOut := s.busOut ++ [.txStart ⟨(head s).cls ++ (head s).addr, (head s).len, (head s).data⟩]
        state := .waitForSend
        cnt := s.cfg.tSend }) ∧
    (s.state ≠ .idle ∨ s.wr = s.rd ∨ s.cnt ≠ 0 → dispatch s = s)

/-- R175: a TICK that does not expire decrements the countdown and changes nothing else. -/
def Obligations.TickDecrementsTheCountdown : Prop :=
  ∀ s : State, 2 ≤ s.cnt → exec .tick s = .next { s with cnt := s.cnt - 1 }

/-- R179: a TICK with `CNT = 0` changes nothing. -/
def Obligations.TickWithoutCountdownDoesNothing : Prop :=
  ∀ s : State, Inv s → s.cnt = 0 → exec .tick s = .next s

/-- R180: expiry in Idle closes the settling window: no error, nothing invalidated or retired; the oldest waiting
entry, if there is one, is launched in the same TICK. -/
def Obligations.ExpiryInIdleClosesTheWindow : Prop :=
  ∀ s : State, s.state = .idle → s.cnt = 1 →
    exec .tick s = .next (if s.wr = s.rd then { s with cnt := 0 } else
      { s with
        cnt := s.cfg.tSend
        state := .waitForSend
        txslot := ⟨true, frameOf (head s)⟩
        busOut := s.busOut ++ [.txStart (frameOf (head s))] })

/-- R177, R244: expiry in WaitForSend clears `TXSLOT.V`, emits `TX_ABORT`, sets `ERR.SENDTO`, invalidates the
field of the head's class, writes the TIMEOUT marker, advances `RD` and returns to Idle; then `dispatch()`. -/
def Obligations.SendTimeoutRecovers : Prop :=
  ∀ s : State, s.state = .waitForSend → s.cnt = 1 →
    exec .tick s = .next (dispatch { s with
      txslot := ⟨false, s.txslot.frame⟩
      busOut := s.busOut ++ [.txAbort]
      err := s.err ||| 2
      field := fieldsAfter s.cfg (head s).cls s.field
      res := slotsAfter (head s) ⟨.timeout, 0, 0⟩ s.res
      rd := (s.rd + 1) % s.cfg.n
      state := .idle
      cnt := 0 })

/-- R178, R244: expiry in WaitForAck sets `ERR.ACKTO`, invalidates the field of the head's class, writes the
TIMEOUT marker, advances `RD` and returns to Idle; then `dispatch()`. -/
def Obligations.AckTimeoutRecovers : Prop :=
  ∀ s : State, s.state = .waitForAck → s.cnt = 1 →
    exec .tick s = .next (dispatch { s with
      err := s.err ||| 4
      field := fieldsAfter s.cfg (head s).cls s.field
      res := slotsAfter (head s) ⟨.timeout, 0, 0⟩ s.res
      rd := (s.rd + 1) % s.cfg.n
      state := .idle
      cnt := 0 })

/-- R182: the TXC of an enumeration request retires it and opens the settling window. The row of that TXC does so
over any head: that it does not compare its operands with the head is the model's choice (assumption 11). -/
def Obligations.TxcOfEnumerationOpensTheWindow : Prop :=
  ∀ (s : State) (a : DevNo), s.state = .waitForSend → 1 ≤ s.cfg.tSettle →
    let t := { s with
      txslot := ⟨false, s.txslot.frame⟩
      res := slotsAfter (head s) ⟨.timeout, 0, 0⟩ s.res
      rd := (s.rd + 1) % s.cfg.n
      state := .idle
      cnt := s.cfg.tSettle }
    exec (.txcEnum a) s = .next t ∧ ((head s).cls = s.cfg.clsEnum → exec .txc s = .next t)

/-- R183: the TXC of an untagged command retires it at once; then `dispatch()`. The row of that TXC does so over any
head: that it does not compare its operands with the head is the model's choice (assumption 11). -/
def Obligations.TxcOfUntaggedRetires : Prop :=
  ∀ (s : State) (api : BitVec 10) (a : DevNo), s.state = .waitForSend →
    let t := dispatch { s with
      txslot := ⟨false, s.txslot.frame⟩
      res := slotsAfter (head s) ⟨.timeout, 0, 0⟩ s.res
      rd := (s.rd + 1) % s.cfg.n
      state := .idle
      cnt := 0 }
    exec (.txcUntagged api a) s = .next t ∧
    ((head s).cls ≠ s.cfg.clsEnum → (head s).cls.extractLsb' 10 13 = 0 → exec .txc s = .next t)

/-- R184: the TXC of a tagged command waits for its acknowledgement, `T_UPDATE` for a class in `UPD_LONG` and
`T_ACK` for any other; the head stays in the ring. The three rows of that TXC do so over any head: that they do not
compare their operands with the head is the model's choice (assumption 11). -/
def Obligations.TxcOfTaggedAwaitsAck : Prop :=
  ∀ (s : State) (cls : Cls) (a : DevNo), s.state = .waitForSend →
    let t := fun load => { s with txslot := ⟨false, s.txslot.frame⟩, state := .waitForAck, cnt := load }
    exec (.txcTaggedLongDl a) s = .next (t s.cfg.tUpdate) ∧
    exec (.txcTaggedLongSd cls a) s = .next (t s.cfg.tUpdate) ∧
    exec (.txcTagged cls a) s = .next (t s.cfg.tAck) ∧
    ((head s).cls ≠ s.cfg.clsEnum → (head s).cls.extractLsb' 10 13 ≠ 0 →
      exec .txc s = .next (t (if (head s).cls ∈ s.cfg.updLong then s.cfg.tUpdate else s.cfg.tAck)))

/-- R181: a TXC in Idle or WaitForAck is ignored. -/
def Obligations.TxcOutsideWaitForSendIsIgnored : Prop :=
  ∀ (s : State) (i : Instr), Inv s → s.state ≠ .waitForSend → eventOf i = .txc → exec i s = .next s

/-! ## The demultiplexer -/

/-- R121, R200: a frame with a reserved length is dropped before classification; only `ERR.MALFORMED` is set. -/
def Obligations.ReservedLengthDropsTheFrame : Prop :=
  ∀ (s : State) (len : Len) (data : Payload), Inv s → 8 < len.toNat →
    (∀ id, exec (.rxf id len data) s = .next { s with err := s.err ||| 8 }) ∧
    ∀ i, framePayload i = some (len, data) → exec i s = .next { s with err := s.err ||| 8 }

/-- R202: a status or firmware-version frame of an unexpected length sets `ERR.MALFORMED` and has no further
effect. -/
def Obligations.MalformedStatusFrameIsDropped : Prop :=
  ∀ (s : State) (a : DevNo) (len : Len) (data : Payload), Inv s →
    (∀ k : Fin 8, len.toNat ≠ s.cfg.expLen[k.castSucc] →
      exec (statusRow k a len data) s = .next { s with err := s.err ||| 8 } ∧
      exec (.rxf (identOf s.cfg.clsStatus[k] a) len data) s = .next { s with err := s.err ||| 8 }) ∧
    (len.toNat ≠ s.cfg.expLen[(8 : Fin 9)] →
      exec (.rxfFwver a len data) s = .next { s with err := s.err ||| 8 } ∧
      exec (.rxf (identOf s.cfg.clsFwver a) len data) s = .next { s with err := s.err ||| 8 })

/-- R203, R204, R205 in the order of R201: a well-formed status frame updates its field, retires a head of its
class in WaitForAck, and pushes the next poll of the chain; then `dispatch()`. It does so as a row and as the
RXF of its identifier. The byte order of the value, `le`, is PRESUMED by the spec itself (R71, assumption 13). -/
def Obligations.StatusFrameHasItsEffect : Prop :=
  ∀ (s : State) (k : Fin 8) (a : DevNo) (len : Len) (data : Payload),
    s.cfg.Valid → len.toNat = s.cfg.expLen[k.castSucc] →
    let old := s.field[k.castSucc]
    let new : StatusField :=
      if a = s.target then ⟨BitVec.ofNat 32 (le data len.toNat), true⟩ else ⟨old.value, false⟩
    let s1 := { s with field := s.field.set k.castSucc new }
    let s2 := if s.state = .waitForAck ∧ (head s).cls = s.cfg.clsStatus[k] then
        { s1 with
          res := slotsAfter (head s) (if a = (head s).addr then ⟨.done, len, data⟩ else ⟨.timeout, 0, 0⟩) s.res
          rd := (s.rd + 1) % s.cfg.n
          state := .idle
          cnt := 0 }
      else s1
    let successor : Option (Fin 8) := if k = 7 then (if s.cfg.chainWrap then some 0 else none) else some (k + 1)
    let s3 := match successor with
      | none => s2
      | some j =>
        if s.sweepEn = true then
          if (s2.wr + 1) % s.cfg.n = s2.rd then { s2 with err := s.err ||| 16 }
          else { s2 with q := s.q.set s.wr ⟨s.target, s.cfg.clsStatus[j], 0, 0, false, 0⟩
                         wr := (s.wr + 1) % s.cfg.n }
        else s2
    exec (statusRow k a len data) s = .next (dispatch s3) ∧
    exec (.rxf (identOf s.cfg.clsStatus[k] a) len data) s = .next (dispatch s3)

/-- R206: a well-formed firmware-version frame updates field 8 and retires a head of its class; it has no
successor. The byte order of the value, `le`, is PRESUMED by the spec itself (R71, assumption 13). -/
def Obligations.FwverFrameHasItsEffect : Prop :=
  ∀ (s : State) (a : DevNo) (len : Len) (data : Payload),
    s.cfg.Valid → len.toNat = s.cfg.expLen[(8 : Fin 9)] →
    let old := s.field[(8 : Fin 9)]
    let new : StatusField :=
      if a = s.target then ⟨BitVec.ofNat 32 (le data len.toNat), true⟩ else ⟨old.value, false⟩
    let s1 := { s with field := s.field.set (8 : Fin 9) new }
    let s2 := if s.state = .waitForAck ∧ (head s).cls = s.cfg.clsFwver then
        { s1 with
          res := slotsAfter (head s) (if a = (head s).addr then ⟨.done, len, data⟩ else ⟨.timeout, 0, 0⟩) s.res
          rd := (s.rd + 1) % s.cfg.n
          state := .idle
          cnt := 0 }
      else s1
    exec (.rxfFwver a len data) s = .next (dispatch s2) ∧
    exec (.rxf (identOf s.cfg.clsFwver a) len data) s = .next (dispatch s2)

/-- R201: a status reply that retires the head finds room for its successor, so it raises no ChainDrop, as a row and
as the RXF of its identifier. -/
def Obligations.RetiringReplyFindsRoom : Prop :=
  ∀ (s t : State) (k : Fin 8) (a : DevNo) (len : Len) (data : Payload), Inv s →
    len.toNat = s.cfg.expLen[k.castSucc] → s.state = .waitForAck → (head s).cls = s.cfg.clsStatus[k] →
    (exec (statusRow k a len data) s = .next t → t.err = s.err) ∧
    (exec (.rxf (identOf s.cfg.clsStatus[k] a) len data) s = .next t → t.err = s.err)

/-- R207: an enumeration reply sets its device's presence bit exactly while settling, unless the device number is
0, and changes nothing else. -/
def Obligations.EnumReplySetsItsBit : Prop :=
  ∀ (s : State) (a : DevNo) (len : Len) (data : Payload), Inv s → len.toNat ≤ 8 →
    let t := if s.state = .idle ∧ s.cnt ≠ 0 ∧ a ≠ 0 then
      { s with pres := s.pres ||| BitVec.twoPow 64 a.toNat } else s
    exec (.rxfEnumReply a len data) s = .next t ∧
    exec (.rxf (identOf s.cfg.clsEnumReply a) len data) s = .next t

/-- R208: a generic acknowledgement retires the head in WaitForAck, whoever sent it, with the TIMEOUT marker for a
result reference; in any other state it is ignored. -/
def Obligations.AckRetiresTheHead : Prop :=
  ∀ (s : State) (a : DevNo) (len : Len) (data : Payload), Inv s → len.toNat ≤ 8 →
    let t := if s.state = .waitForAck then
      dispatch { s with
        res := slotsAfter (head s) ⟨.timeout, 0, 0⟩ s.res
        rd := (s.rd + 1) % s.cfg.n
        state := .idle
        cnt := 0 } else s
    exec (.rxfAck a len data) s = .next t ∧ exec (.rxf (identOf s.cfg.clsAck a) len data) s = .next t

/-- R209: a bootloader acknowledgement sets `UPDACK` in every state, and retires the head in WaitForAck. -/
def Obligations.UpdackSetsTheFlag : Prop :=
  ∀ (s : State) (a : DevNo) (len : Len) (data : Payload), Inv s → len.toNat ≤ 8 →
    let t := if s.state = .waitForAck then
      dispatch { s with
        updack := true
        res := slotsAfter (head s) ⟨.timeout, 0, 0⟩ s.res
        rd := (s.rd + 1) % s.cfg.n
        state := .idle
        cnt := 0 } else { s with updack := true }
    exec (.rxfUpdack a len data) s = .next t ∧ exec (.rxf (identOf s.cfg.clsUpdack a) len data) s = .next t

/-- R210: a frame of any other class retires a head of its class and device number in WaitForAck, delivering its
payload as it is; otherwise it is ignored. -/
def Obligations.OtherFrameDeliversItsPayload : Prop :=
  ∀ (s : State) (cls : Cls) (a : DevNo) (len : Len) (data : Payload), Inv s → len.toNat ≤ 8 →
    let t := if s.state = .waitForAck ∧ (head s).cls = cls ∧ (head s).addr = a then
      dispatch { s with
        res := slotsAfter (head s) ⟨.done, len, data⟩ s.res
        rd := (s.rd + 1) % s.cfg.n
        state := .idle
        cnt := 0 } else s
    exec (.rxfOther cls a len data) s = .next t ∧
    (rxKind s.cfg cls = .other → exec (.rxf (identOf cls a) len data) s = .next t)

/-! ## Host operations -/

/-- R140: an ENQ with a legal length and room in the ring stores the command, dispatches and returns Ok. -/
def Obligations.EnqStoresTheCommand : Prop :=
  ∀ (s : State) (cls : Cls) (a : DevNo) (len : Len) (data : Payload),
    len.toNat ≤ 8 → (s.wr + 1) % s.cfg.n ≠ s.rd →
    exec (.enq cls a len data) s = .next (answer .ok (dispatch { s with
      q := s.q.set s.wr ⟨a, cls, len, data, false, 0⟩
      wr := (s.wr + 1) % s.cfg.n }))

/-- R141: an ENQR with legal operands and room in the ring presets its slot to PENDING and stores the command
with the reference, in one event. -/
def Obligations.EnqrPresetsItsSlot : Prop :=
  ∀ (s : State) (cls : Cls) (a : DevNo) (len : Len) (data : Payload) (r : SlotIx),
    len.toNat ≤ 8 → r.toNat < s.cfg.r → (readSlot s r).st ≠ .pending → (s.wr + 1) % s.cfg.n ≠ s.rd →
    exec (.enqr cls a len data r) s = .next (answer .ok (dispatch { s with
      res := s.res.set r.toFin ⟨.pending, 0, 0⟩
      q := s.q.set s.wr ⟨a, cls, len, data, true, r⟩
      wr := (s.wr + 1) % s.cfg.n }))

/-- R142: a SETADDR with a legal address and room in the ring sets `TARGET`, invalidates all nine fields keeping
their values, and enqueues the firmware-version query to the new target. -/
def Obligations.SetaddrInvalidatesAndQueries : Prop :=
  ∀ (s : State) (a : DevNo), a ≠ 0 → (s.wr + 1) % s.cfg.n ≠ s.rd →
    exec (.setaddr a) s = .next (answer .ok (dispatch { s with
      target := a
      field := s.field.map fun f => ⟨f.value, false⟩
      q := s.q.set s.wr ⟨a, s.cfg.clsFwver, 0, 0, false, 0⟩
      wr := (s.wr + 1) % s.cfg.n }))

/-- R143: an ENUM with room in the ring clears the bitmap and enqueues the broadcast request. -/
def Obligations.EnumClearsTheBitmap : Prop :=
  ∀ s : State, (s.wr + 1) % s.cfg.n ≠ s.rd →
    exec .enum s = .next (answer .ok (dispatch { s with
      pres := 0
      q := s.q.set s.wr ⟨0, s.cfg.clsEnum, 0, 0, false, 0⟩
      wr := (s.wr + 1) % s.cfg.n }))

/-- R231: on a full ring ENQ and ENQR change no state but `ERR`, and SETADDR and ENUM keep only the part before
the push; each returns QueueFull; and no event of the interrupt context ever sets `ERR.QFULL`. -/
def Obligations.QueueFullIsPrecise : Prop :=
  ∀ s : State, Inv s →
    ((s.wr + 1) % s.cfg.n = s.rd →
      (∀ cls a len data, len.toNat ≤ 8 → exec (.enq cls a len data) s =
        .next { s with err := s.err ||| 1, hostOut := s.hostOut ++ [.queueFull] }) ∧
      (∀ cls a len data r, len.toNat ≤ 8 → r.toNat < s.cfg.r → (readSlot s r).st ≠ .pending →
        exec (.enqr cls a len data r) s =
          .next { s with err := s.err ||| 1, hostOut := s.hostOut ++ [.queueFull] }) ∧
      (∀ a, a ≠ 0 → exec (.setaddr a) s = .next { s with
        target := a
        field := s.field.map fun f => ⟨f.value, false⟩
        err := s.err ||| 1
        hostOut := s.hostOut ++ [.queueFull] }) ∧
      exec .enum s =
        .next { s with pres := 0, err := s.err ||| 1, hostOut := s.hostOut ++ [.queueFull] }) ∧
    ∀ (i : Instr) (t : State), (eventOf i).context = .interrupt → exec i s = .next t →
      t.err.getLsbD 0 = s.err.getLsbD 0

/-- R234 and the operand tests of R140, R141, R142, R145, R147, R149: an illegal operand sets `ERR.BADARG`,
returns BadArg and changes nothing else, also when the ring is full (R243). -/
def Obligations.BadArgChangesNothingElse : Prop :=
  ∀ s : State,
    let t := { s with err := s.err ||| 32, hostOut := s.hostOut ++ [.badArg] }
    (∀ cls a len data, 8 < len.toNat → exec (.enq cls a len data) s = .next t) ∧
    (∀ cls a len data r, 8 < len.toNat ∨ s.cfg.r ≤ r.toNat ∨ (readSlot s r).st = .pending →
      exec (.enqr cls a len data r) s = .next t) ∧
    exec (.setaddr 0) s = .next t ∧
    (∀ k, 8 < k.toNat → exec (.rdstat k) s = .next t) ∧
    (∀ r, s.cfg.r ≤ r.toNat → exec (.rdres r) s = .next t) ∧
    ∀ n, 8 < n.toNat → exec (.rdreg n) s = .next t

/-- R144: SWEEP writes `SWEEP_EN`, returns Ok and does nothing else. -/
def Obligations.SweepWritesItsBit : Prop :=
  ∀ (s : State) (b : Bool),
    exec (.sweep b) s = .next { s with sweepEn := b, hostOut := s.hostOut ++ [.ok] }

/-- R145, R146, R147, R105: RDSTAT returns the pair of one StatusField, RDPRES the bitmap, RDRES
`ST ‖ LEN ‖ DATA64` of an existing slot; none of them changes anything else. -/
def Obligations.ReadOperationsReturnTheirState : Prop :=
  ∀ s : State,
    (∀ k : Fin 9, exec (.rdstat (BitVec.ofNat 4 k.val)) s =
      .next { s with hostOut := s.hostOut ++ [.stat s.field[k].value s.field[k].valid] }) ∧
    exec .rdpres s = .next { s with hostOut := s.hostOut ++ [.bitmap s.pres] } ∧
    ∀ r : SlotIx, r.toNat < s.cfg.r →
      ∃ w : BitVec 70, exec (.rdres r) s = .next { s with hostOut := s.hostOut ++ [.slot w] } ∧
        w.extractLsb' 64 4 = (readSlot s r).len ∧ w.extractLsb' 0 64 = (readSlot s r).data ∧
        w.extractLsb' 68 2 = (match (readSlot s r).st with
          | .free => 0
          | .pending => 1
          | .done => 2
          | .timeout => 3)

/-- R148: TAKEUPD returns the update-ack flag and clears it. -/
def Obligations.TakeupdConsumesTheFlag : Prop :=
  ∀ s : State, exec .takeupd s = .next { s with updack := false, hostOut := s.hostOut ++ [.bit s.updack] }

/-- R47, R37, R39: RDREG returns the nine registers by their numbers, zero-extended to 32 bits, and changes
nothing. -/
def Obligations.RdregReadsTheRegisters : Prop :=
  ∀ s : State,
    let bit : Bool → BitVec 32 := fun b => if b then 1 else 0
    let gives : BitVec 4 → BitVec 32 → Prop := fun n v =>
      exec (.rdreg n) s = .next { s with hostOut := s.hostOut ++ [.value v] }
    gives 0 (match s.state with
      | .idle => 0
      | .waitForSend => 1
      | .waitForAck => 2) ∧
    gives 1 (BitVec.ofNat 32 s.cnt) ∧ gives 2 (BitVec.ofNat 32 s.rd) ∧ gives 3 (BitVec.ofNat 32 s.wr) ∧
    gives 4 (s.target.setWidth 32) ∧ gives 5 (bit s.sweepEn) ∧
    gives 6 (bit s.updack ||| (bit s.txslot.v <<< 1) ||| (bit (s.state = .idle ∧ s.cnt ≠ 0) <<< 2) |||
      (bit (s.wr = s.rd) <<< 3) ||| (bit ((s.wr + 1) % s.cfg.n = s.rd) <<< 4)) ∧
    gives 7 (s.err.setWidth 32) ∧ gives 8 (BitVec.ofNat 32 (count s))

/-- R150: CLRERR clears exactly the bits of its mask and returns Ok. -/
def Obligations.ClrerrClearsTheMaskedBits : Prop :=
  ∀ (s : State) (m : BitVec 6), ∃ e : BitVec 6,
    exec (.clrerr m) s = .next { s with err := e, hostOut := s.hostOut ++ [.ok] } ∧
    ∀ b, b < 6 → e.getLsbD b = (s.err.getLsbD b && !m.getLsbD b)

/-! ## Rules of the whole machine -/

/-- R30's column "written by": each of the thirteen components changes only in the events named there, and the
parameters and the presented events in none. That RESET is a writer of `Q` is not in that column: it is the model's
choice, the free values of assumption 4. -/
def Obligations.ComponentsHaveTheirWriters : Prop :=
  ∀ (s t : State) (i : Instr), exec i s = .next t →
    let e := eventOf i
    let pushes := e = .enq ∨ e = .enqr ∨ e = .setaddr ∨ e = .enum
    let retires := e = .tick ∨ e = .txc ∨ e = .rxf
    t.cfg = s.cfg ∧ t.input = s.input ∧
    (t.state ≠ s.state → pushes ∨ retires ∨ e = .reset) ∧
    (t.cnt ≠ s.cnt → pushes ∨ retires ∨ e = .reset) ∧
    (t.rd ≠ s.rd → retires ∨ e = .reset) ∧
    (t.wr ≠ s.wr → pushes ∨ e = .rxf ∨ e = .reset) ∧
    (t.target ≠ s.target → e = .setaddr ∨ e = .reset) ∧
    (t.sweepEn ≠ s.sweepEn → e = .sweep ∨ e = .reset) ∧
    (t.updack ≠ s.updack → e = .rxf ∨ e = .takeupd ∨ e = .reset) ∧
    (t.err ≠ s.err → e = .tick ∨ e = .rxf ∨ pushes ∨ e = .rdstat ∨ e = .rdres ∨ e = .rdreg ∨ e = .clrerr ∨
      e = .reset) ∧
    (t.field ≠ s.field → e = .rxf ∨ e = .tick ∨ e = .setaddr ∨ e = .reset) ∧
    (t.pres ≠ s.pres → e = .rxf ∨ e = .enum ∨ e = .reset) ∧
    (t.res ≠ s.res → e = .enqr ∨ retires ∨ e = .reset) ∧
    (t.q ≠ s.q → pushes ∨ e = .rxf ∨ e = .reset) ∧
    (t.txslot ≠ s.txslot → pushes ∨ retires ∨ e = .reset) ∧
    (t.hostOut ≠ s.hostOut → e.context = .foreground) ∧
    (t.draws ≠ s.draws → e = .reset)

/-- R152: no host operation aborts a command, removes or edits a queue entry, writes a StatusField's value or makes
one valid, sets a presence bit, or moves `STATE` or `CNT` other than by a launch. -/
def Obligations.HostCannotReachTheEngine : Prop :=
  ∀ (s t : State) (i : Instr), Inv s → (eventOf i).context = .foreground → exec i s = .next t →
    t.rd = s.rd ∧
    (∃ new, liveEntries t = liveEntries s ++ new) ∧
    (∀ k : Fin 9, t.field[k].value = s.field[k].value ∧ (t.field[k].valid = true → s.field[k].valid = true)) ∧
    (∀ a, t.pres.getLsbD a = true → s.pres.getLsbD a = true) ∧
    (BusOut.txAbort ∉ t.busOut.drop s.busOut.length) ∧
    ((t.state = s.state ∧ t.cnt = s.cnt ∧ t.txslot = s.txslot ∧ t.busOut = s.busOut) ∨
      (s.state = .idle ∧ s.cnt = 0 ∧ s.wr = s.rd ∧ t.state = .waitForSend ∧ t.cnt = s.cfg.tSend ∧
        t.txslot = ⟨true, frameOf (head t)⟩ ∧ t.busOut = s.busOut ++ [.txStart t.txslot.frame]))

/-- R38: an error bit, once set, stays set until CLRERR or RESET; and no rule of the engine reads `ERR`: two states
that differ only in `ERR` go on to states that differ only in `ERR`, for every event but the RDREG that reads the
register itself. -/
def Obligations.ErrIsStickyAndObservationOnly : Prop :=
  ∀ (s t : State) (i : Instr), exec i s = .next t →
    (eventOf i ≠ .clrerr → eventOf i ≠ .reset → ∀ b : Nat, s.err.getLsbD b = true → t.err.getLsbD b = true) ∧
    (i ≠ .rdreg 7 → ∀ e : BitVec 6, ∃ e', exec i { s with err := e } = .next { t with err := e' })

/-- R251, R188: an event emits nothing, one `TX_START`, one `TX_ABORT`, or an abort followed by a start. A start is
the launch of the head from an engine that was Idle, or that retired the entry in flight in this same event; an
abort is the send time-out. -/
def Obligations.BusOutputsAreLaunchesAndAborts : Prop :=
  ∀ (s t : State) (i : Instr), Inv s → exec i s = .next t →
    ∃ outs, t.busOut = s.busOut ++ outs ∧
      (outs = [] ∨ outs = [.txStart t.txslot.frame] ∨ outs = [.txAbort] ∨
        outs = [.txAbort, .txStart t.txslot.frame]) ∧
      (BusOut.txStart t.txslot.frame ∈ outs →
        t.state = .waitForSend ∧ t.cnt = s.cfg.tSend ∧ t.txslot = ⟨true, frameOf (head t)⟩ ∧
        (s.state = .idle ∨ t.rd = (s.rd + 1) % s.cfg.n)) ∧
      (BusOut.txAbort ∈ outs ↔ i = .tick ∧ s.state = .waitForSend ∧ s.cnt = 1)

/-- R44, R80: a PENDING slot is overwritten only by the retirement of the entry that names it, with DONE or
TIMEOUT; a slot that is not PENDING is written only by an ENQR that names it. -/
def Obligations.SlotsAreWriteOnceMailboxes : Prop :=
  ∀ (s t : State) (i : Instr) (r : SlotIx), Inv s → i ≠ .reset → exec i s = .next t →
    readSlot t r ≠ readSlot s r →
    ((readSlot s r).st = .pending → (head s).rv = true ∧ (head s).rslot = r ∧ s.state ≠ .idle ∧
      t.rd = (s.rd + 1) % s.cfg.n ∧ ((readSlot t r).st = .done ∨ readSlot t r = ⟨.timeout, 0, 0⟩)) ∧
    ((readSlot s r).st ≠ .pending → (∃ cls a len data, i = .enqr cls a len data r) ∧
      readSlot t r = ⟨.pending, 0, 0⟩)

/-! ## Runs -/

/-- R176, R187 (a): with nothing but TICKs after a launch, nothing but `CNT` changes before the `CNT`-th TICK, and
that TICK aborts the frame and retires the entry. -/
def Obligations.SendTimeoutIsExact : Prop :=
  ∀ s : State, Inv s → s.state = .waitForSend →
    (∀ k, k < s.cnt → runEvents (List.replicate k .tick) s = .next { s with cnt := s.cnt - k }) ∧
    ∃ t, runEvents (List.replicate s.cnt .tick) s = .next t ∧ t.rd = (s.rd + 1) % s.cfg.n ∧
      t.err = s.err ||| 2 ∧ (∃ outs, t.busOut = s.busOut ++ .txAbort :: outs) ∧
      t.res = slotsAfter (head s) ⟨.timeout, 0, 0⟩ s.res ∧ t.field = fieldsAfter s.cfg (head s).cls s.field

/-- R187 (b): a command that is sent and never answered is retired at exactly the `T_ACK`-th TICK after its TXC
(`T_UPDATE`-th for a class in `UPD_LONG`), never earlier: until then its result slot is untouched, and then it
holds the TIMEOUT marker. -/
def Obligations.ReadTimesOutAtExactlyTAck : Prop :=
  ∀ (s : State) (k : Nat), Inv s → s.state = .waitForSend → (head s).cls ≠ s.cfg.clsEnum →
    (head s).cls.extractLsb' 10 13 ≠ 0 →
    let limit := if (head s).cls ∈ s.cfg.updLong then s.cfg.tUpdate else s.cfg.tAck
    (k < limit → runEvents (.txc :: List.replicate k .tick) s = .next { s with
      txslot := ⟨false, s.txslot.frame⟩, state := .waitForAck, cnt := limit - k }) ∧
    (k = limit → ∃ t, runEvents (.txc :: List.replicate k .tick) s = .next t ∧ t.rd = (s.rd + 1) % s.cfg.n ∧
      t.err = s.err ||| 4 ∧ t.res = slotsAfter (head s) ⟨.timeout, 0, 0⟩ s.res)

/-- R187 (c), R191: whatever else is presented, a launched entry is retired by the time
`T_SEND + max(T_ACK, T_UPDATE)` TICKs have been presented. -/
def Obligations.EveryLaunchedEntryIsRetired : Prop :=
  ∀ (s t : State) (is : List Instr), Inv s → s.state ≠ .idle → .reset ∉ is →
    s.cfg.tSend + max s.cfg.tAck s.cfg.tUpdate ≤ is.count .tick → runEvents is s = .next t →
    ∃ before after u, is = before ++ after ∧ runEvents before s = .next u ∧ u.rd = (s.rd + 1) % s.cfg.n

/-- R182, R50: while the settling window is open, whatever is presented, nothing is transmitted, and each TICK
brings its close one nearer. -/
def Obligations.SettlingHoldsOffTransmission : Prop :=
  ∀ (s t : State) (is : List Instr), s.state = .idle → is.count .tick < s.cnt → .reset ∉ is →
    runEvents is s = .next t →
    t.state = .idle ∧ t.cnt = s.cnt - is.count .tick ∧ t.busOut = s.busOut ∧ t.rd = s.rd

/-- R146, R207: the bitmap read inside a settling window holds exactly the bits it held before and those of the
devices that replied within the window, in whatever order. -/
def Obligations.PresenceBitmapIsExact : Prop :=
  ∀ (s t : State) (is : List Instr) (a : DevNo), s.cfg.Valid → s.state = .idle → is.count .tick < s.cnt →
    .reset ∉ is → .enum ∉ is → runEvents is s = .next t → a ≠ 0 →
    (t.pres.getLsbD a.toNat = true ↔
      s.pres.getLsbD a.toNat = true ∨ ∃ i ∈ is, isEnumReplyFrom s.cfg a i = true)
end

