-- ==== Sys2Proof/Laws/Decode.lean ====
section
/-! SUPPORT. The fields of an event word and the word of the fields are inverse to one another (R106). -/

namespace Sys2Proof

/-- Taking a word's fields out and putting them back gives the word. -/
theorem EventFields.toWord_ofWord (w : EventWord) : (EventFields.ofWord w).toWord = w := by
  apply BitVec.eq_of_getLsbD_eq
  intro i hi
  simp only [EventFields.toWord, EventFields.ofWord, BitVec.getLsbD_append, BitVec.getLsbD_extractLsb']
  grind

/-- Making a word of fields and taking them out gives the fields. -/
theorem EventFields.ofWord_toWord (f : EventFields) : EventFields.ofWord f.toWord = f := by
  obtain ⟨op, id, len, data, rslot, b⟩ := f
  simp only [EventFields.ofWord, EventFields.toWord, EventFields.mk.injEq]
  refine ⟨?_, ?_, ?_, ?_, ?_, ?_⟩ <;>
  · apply BitVec.eq_of_getLsbD_eq
    intro i hi
    simp only [BitVec.getLsbD_extractLsb', BitVec.getLsbD_append]
    grind

end Sys2Proof
end

