-- ==== Sys2Proof/Laws/State.lean ====
section
/-! SUPPORT. One lemma per field of `State` for each primitive update of Machine/Ops.lean and Machine/Present.lean,
so that no later proof unfolds a record update. -/

namespace Sys2Proof.Machine

variable (s : State)

/-! `writeEntry` -/

@[simp] theorem writeEntry_state (i : Nat) (e : QEntry) : (writeEntry i e s).state = s.state := rfl
@[simp] theorem writeEntry_cnt (i : Nat) (e : QEntry) : (writeEntry i e s).cnt = s.cnt := rfl
@[simp] theorem writeEntry_rd (i : Nat) (e : QEntry) : (writeEntry i e s).rd = s.rd := rfl
@[simp] theorem writeEntry_wr (i : Nat) (e : QEntry) : (writeEntry i e s).wr = s.wr := rfl
@[simp] theorem writeEntry_target (i : Nat) (e : QEntry) : (writeEntry i e s).target = s.target := rfl
@[simp] theorem writeEntry_sweepEn (i : Nat) (e : QEntry) : (writeEntry i e s).sweepEn = s.sweepEn := rfl
@[simp] theorem writeEntry_updack (i : Nat) (e : QEntry) : (writeEntry i e s).updack = s.updack := rfl
@[simp] theorem writeEntry_err (i : Nat) (e : QEntry) : (writeEntry i e s).err = s.err := rfl
@[simp] theorem writeEntry_field (i : Nat) (e : QEntry) : (writeEntry i e s).field = s.field := rfl
@[simp] theorem writeEntry_pres (i : Nat) (e : QEntry) : (writeEntry i e s).pres = s.pres := rfl
@[simp] theorem writeEntry_res (i : Nat) (e : QEntry) : (writeEntry i e s).res = s.res := rfl
@[simp] theorem writeEntry_q (i : Nat) (e : QEntry) : (writeEntry i e s).q = s.q.set i e := rfl
@[simp] theorem writeEntry_txslot (i : Nat) (e : QEntry) : (writeEntry i e s).txslot = s.txslot := rfl
@[simp] theorem writeEntry_cfg (i : Nat) (e : QEntry) : (writeEntry i e s).cfg = s.cfg := rfl
@[simp] theorem writeEntry_input (i : Nat) (e : QEntry) : (writeEntry i e s).input = s.input := rfl
@[simp] theorem writeEntry_busOut (i : Nat) (e : QEntry) : (writeEntry i e s).busOut = s.busOut := rfl
@[simp] theorem writeEntry_hostOut (i : Nat) (e : QEntry) : (writeEntry i e s).hostOut = s.hostOut := rfl
@[simp] theorem writeEntry_draws (i : Nat) (e : QEntry) : (writeEntry i e s).draws = s.draws := rfl

/-! `writeSlot` -/

@[simp] theorem writeSlot_state (r : SlotIx) (v : ResSlot) : (writeSlot r v s).state = s.state := rfl
@[simp] theorem writeSlot_cnt (r : SlotIx) (v : ResSlot) : (writeSlot r v s).cnt = s.cnt := rfl
@[simp] theorem writeSlot_rd (r : SlotIx) (v : ResSlot) : (writeSlot r v s).rd = s.rd := rfl
@[simp] theorem writeSlot_wr (r : SlotIx) (v : ResSlot) : (writeSlot r v s).wr = s.wr := rfl
@[simp] theorem writeSlot_target (r : SlotIx) (v : ResSlot) : (writeSlot r v s).target = s.target := rfl
@[simp] theorem writeSlot_sweepEn (r : SlotIx) (v : ResSlot) : (writeSlot r v s).sweepEn = s.sweepEn := rfl
@[simp] theorem writeSlot_updack (r : SlotIx) (v : ResSlot) : (writeSlot r v s).updack = s.updack := rfl
@[simp] theorem writeSlot_err (r : SlotIx) (v : ResSlot) : (writeSlot r v s).err = s.err := rfl
@[simp] theorem writeSlot_field (r : SlotIx) (v : ResSlot) : (writeSlot r v s).field = s.field := rfl
@[simp] theorem writeSlot_pres (r : SlotIx) (v : ResSlot) : (writeSlot r v s).pres = s.pres := rfl
@[simp] theorem writeSlot_res (r : SlotIx) (v : ResSlot) : (writeSlot r v s).res = s.res.set r.toFin v := rfl
@[simp] theorem writeSlot_q (r : SlotIx) (v : ResSlot) : (writeSlot r v s).q = s.q := rfl
@[simp] theorem writeSlot_txslot (r : SlotIx) (v : ResSlot) : (writeSlot r v s).txslot = s.txslot := rfl
@[simp] theorem writeSlot_cfg (r : SlotIx) (v : ResSlot) : (writeSlot r v s).cfg = s.cfg := rfl
@[simp] theorem writeSlot_input (r : SlotIx) (v : ResSlot) : (writeSlot r v s).input = s.input := rfl
@[simp] theorem writeSlot_busOut (r : SlotIx) (v : ResSlot) : (writeSlot r v s).busOut = s.busOut := rfl
@[simp] theorem writeSlot_hostOut (r : SlotIx) (v : ResSlot) : (writeSlot r v s).hostOut = s.hostOut := rfl
@[simp] theorem writeSlot_draws (r : SlotIx) (v : ResSlot) : (writeSlot r v s).draws = s.draws := rfl

/-! `raise` -/

@[simp] theorem raise_state (e : ErrorOutcome) : (raise e s).state = s.state := rfl
@[simp] theorem raise_cnt (e : ErrorOutcome) : (raise e s).cnt = s.cnt := rfl
@[simp] theorem raise_rd (e : ErrorOutcome) : (raise e s).rd = s.rd := rfl
@[simp] theorem raise_wr (e : ErrorOutcome) : (raise e s).wr = s.wr := rfl
@[simp] theorem raise_target (e : ErrorOutcome) : (raise e s).target = s.target := rfl
@[simp] theorem raise_sweepEn (e : ErrorOutcome) : (raise e s).sweepEn = s.sweepEn := rfl
@[simp] theorem raise_updack (e : ErrorOutcome) : (raise e s).updack = s.updack := rfl
@[simp] theorem raise_err (e : ErrorOutcome) : (raise e s).err = s.err ||| e.mask := rfl
@[simp] theorem raise_field (e : ErrorOutcome) : (raise e s).field = s.field := rfl
@[simp] theorem raise_pres (e : ErrorOutcome) : (raise e s).pres = s.pres := rfl
@[simp] theorem raise_res (e : ErrorOutcome) : (raise e s).res = s.res := rfl
@[simp] theorem raise_q (e : ErrorOutcome) : (raise e s).q = s.q := rfl
@[simp] theorem raise_txslot (e : ErrorOutcome) : (raise e s).txslot = s.txslot := rfl
@[simp] theorem raise_cfg (e : ErrorOutcome) : (raise e s).cfg = s.cfg := rfl
@[simp] theorem raise_input (e : ErrorOutcome) : (raise e s).input = s.input := rfl
@[simp] theorem raise_busOut (e : ErrorOutcome) : (raise e s).busOut = s.busOut := rfl
@[simp] theorem raise_hostOut (e : ErrorOutcome) : (raise e s).hostOut = s.hostOut := rfl
@[simp] theorem raise_draws (e : ErrorOutcome) : (raise e s).draws = s.draws := rfl

/-! `answer` -/

@[simp] theorem answer_state (r : HostResult) : (answer r s).state = s.state := rfl
@[simp] theorem answer_cnt (r : HostResult) : (answer r s).cnt = s.cnt := rfl
@[simp] theorem answer_rd (r : HostResult) : (answer r s).rd = s.rd := rfl
@[simp] theorem answer_wr (r : HostResult) : (answer r s).wr = s.wr := rfl
@[simp] theorem answer_target (r : HostResult) : (answer r s).target = s.target := rfl
@[simp] theorem answer_sweepEn (r : HostResult) : (answer r s).sweepEn = s.sweepEn := rfl
@[simp] theorem answer_updack (r : HostResult) : (answer r s).updack = s.updack := rfl
@[simp] theorem answer_err (r : HostResult) : (answer r s).err = s.err := rfl
@[simp] theorem answer_field (r : HostResult) : (answer r s).field = s.field := rfl
@[simp] theorem answer_pres (r : HostResult) : (answer r s).pres = s.pres := rfl
@[simp] theorem answer_res (r : HostResult) : (answer r s).res = s.res := rfl
@[simp] theorem answer_q (r : HostResult) : (answer r s).q = s.q := rfl
@[simp] theorem answer_txslot (r : HostResult) : (answer r s).txslot = s.txslot := rfl
@[simp] theorem answer_cfg (r : HostResult) : (answer r s).cfg = s.cfg := rfl
@[simp] theorem answer_input (r : HostResult) : (answer r s).input = s.input := rfl
@[simp] theorem answer_busOut (r : HostResult) : (answer r s).busOut = s.busOut := rfl
@[simp] theorem answer_hostOut (r : HostResult) : (answer r s).hostOut = s.hostOut ++ [r] := rfl
@[simp] theorem answer_draws (r : HostResult) : (answer r s).draws = s.draws := rfl

/-! `emit` -/

@[simp] theorem emit_state (o : BusOut) : (emit o s).state = s.state := rfl
@[simp] theorem emit_cnt (o : BusOut) : (emit o s).cnt = s.cnt := rfl
@[simp] theorem emit_rd (o : BusOut) : (emit o s).rd = s.rd := rfl
@[simp] theorem emit_wr (o : BusOut) : (emit o s).wr = s.wr := rfl
@[simp] theorem emit_target (o : BusOut) : (emit o s).target = s.target := rfl
@[simp] theorem emit_sweepEn (o : BusOut) : (emit o s).sweepEn = s.sweepEn := rfl
@[simp] theorem emit_updack (o : BusOut) : (emit o s).updack = s.updack := rfl
@[simp] theorem emit_err (o : BusOut) : (emit o s).err = s.err := rfl
@[simp] theorem emit_field (o : BusOut) : (emit o s).field = s.field := rfl
@[simp] theorem emit_pres (o : BusOut) : (emit o s).pres = s.pres := rfl
@[simp] theorem emit_res (o : BusOut) : (emit o s).res = s.res := rfl
@[simp] theorem emit_q (o : BusOut) : (emit o s).q = s.q := rfl
@[simp] theorem emit_txslot (o : BusOut) : (emit o s).txslot = s.txslot := rfl
@[simp] theorem emit_cfg (o : BusOut) : (emit o s).cfg = s.cfg := rfl
@[simp] theorem emit_input (o : BusOut) : (emit o s).input = s.input := rfl
@[simp] theorem emit_busOut (o : BusOut) : (emit o s).busOut = s.busOut ++ [o] := rfl
@[simp] theorem emit_hostOut (o : BusOut) : (emit o s).hostOut = s.hostOut := rfl
@[simp] theorem emit_draws (o : BusOut) : (emit o s).draws = s.draws := rfl

/-! `acceptField` -/

@[simp] theorem acceptField_state (k : Fin 9) (v : BitVec 32) : (acceptField k v s).state = s.state := rfl
@[simp] theorem acceptField_cnt (k : Fin 9) (v : BitVec 32) : (acceptField k v s).cnt = s.cnt := rfl
@[simp] theorem acceptField_rd (k : Fin 9) (v : BitVec 32) : (acceptField k v s).rd = s.rd := rfl
@[simp] theorem acceptField_wr (k : Fin 9) (v : BitVec 32) : (acceptField k v s).wr = s.wr := rfl
@[simp] theorem acceptField_target (k : Fin 9) (v : BitVec 32) : (acceptField k v s).target = s.target := rfl
@[simp] theorem acceptField_sweepEn (k : Fin 9) (v : BitVec 32) : (acceptField k v s).sweepEn = s.sweepEn := rfl
@[simp] theorem acceptField_updack (k : Fin 9) (v : BitVec 32) : (acceptField k v s).updack = s.updack := rfl
@[simp] theorem acceptField_err (k : Fin 9) (v : BitVec 32) : (acceptField k v s).err = s.err := rfl
@[simp] theorem acceptField_field (k : Fin 9) (v : BitVec 32) : (acceptField k v s).field = s.field.set k ⟨v, true⟩ := rfl
@[simp] theorem acceptField_pres (k : Fin 9) (v : BitVec 32) : (acceptField k v s).pres = s.pres := rfl
@[simp] theorem acceptField_res (k : Fin 9) (v : BitVec 32) : (acceptField k v s).res = s.res := rfl
@[simp] theorem acceptField_q (k : Fin 9) (v : BitVec 32) : (acceptField k v s).q = s.q := rfl
@[simp] theorem acceptField_txslot (k : Fin 9) (v : BitVec 32) : (acceptField k v s).txslot = s.txslot := rfl
@[simp] theorem acceptField_cfg (k : Fin 9) (v : BitVec 32) : (acceptField k v s).cfg = s.cfg := rfl
@[simp] theorem acceptField_input (k : Fin 9) (v : BitVec 32) : (acceptField k v s).input = s.input := rfl
@[simp] theorem acceptField_busOut (k : Fin 9) (v : BitVec 32) : (acceptField k v s).busOut = s.busOut := rfl
@[simp] theorem acceptField_hostOut (k : Fin 9) (v : BitVec 32) : (acceptField k v s).hostOut = s.hostOut := rfl
@[simp] theorem acceptField_draws (k : Fin 9) (v : BitVec 32) : (acceptField k v s).draws = s.draws := rfl

/-! `invalidateField` -/

@[simp] theorem invalidateField_state (k : Fin 9) : (invalidateField k s).state = s.state := rfl
@[simp] theorem invalidateField_cnt (k : Fin 9) : (invalidateField k s).cnt = s.cnt := rfl
@[simp] theorem invalidateField_rd (k : Fin 9) : (invalidateField k s).rd = s.rd := rfl
@[simp] theorem invalidateField_wr (k : Fin 9) : (invalidateField k s).wr = s.wr := rfl
@[simp] theorem invalidateField_target (k : Fin 9) : (invalidateField k s).target = s.target := rfl
@[simp] theorem invalidateField_sweepEn (k : Fin 9) : (invalidateField k s).sweepEn = s.sweepEn := rfl
@[simp] theorem invalidateField_updack (k : Fin 9) : (invalidateField k s).updack = s.updack := rfl
@[simp] theorem invalidateField_err (k : Fin 9) : (invalidateField k s).err = s.err := rfl
@[simp] theorem invalidateField_field (k : Fin 9) : (invalidateField k s).field = s.field.set k ⟨s.field[k].value, false⟩ := rfl
@[simp] theorem invalidateField_pres (k : Fin 9) : (invalidateField k s).pres = s.pres := rfl
@[simp] theorem invalidateField_res (k : Fin 9) : (invalidateField k s).res = s.res := rfl
@[simp] theorem invalidateField_q (k : Fin 9) : (invalidateField k s).q = s.q := rfl
@[simp] theorem invalidateField_txslot (k : Fin 9) : (invalidateField k s).txslot = s.txslot := rfl
@[simp] theorem invalidateField_cfg (k : Fin 9) : (invalidateField k s).cfg = s.cfg := rfl
@[simp] theorem invalidateField_input (k : Fin 9) : (invalidateField k s).input = s.input := rfl
@[simp] theorem invalidateField_busOut (k : Fin 9) : (invalidateField k s).busOut = s.busOut := rfl
@[simp] theorem invalidateField_hostOut (k : Fin 9) : (invalidateField k s).hostOut = s.hostOut := rfl
@[simp] theorem invalidateField_draws (k : Fin 9) : (invalidateField k s).draws = s.draws := rfl

/-! `invalidateAll` -/

@[simp] theorem invalidateAll_state : (invalidateAll s).state = s.state := rfl
@[simp] theorem invalidateAll_cnt : (invalidateAll s).cnt = s.cnt := rfl
@[simp] theorem invalidateAll_rd : (invalidateAll s).rd = s.rd := rfl
@[simp] theorem invalidateAll_wr : (invalidateAll s).wr = s.wr := rfl
@[simp] theorem invalidateAll_target : (invalidateAll s).target = s.target := rfl
@[simp] theorem invalidateAll_sweepEn : (invalidateAll s).sweepEn = s.sweepEn := rfl
@[simp] theorem invalidateAll_updack : (invalidateAll s).updack = s.updack := rfl
@[simp] theorem invalidateAll_err : (invalidateAll s).err = s.err := rfl
@[simp] theorem invalidateAll_field : (invalidateAll s).field = s.field.map fun f => ⟨f.value, false⟩ := by
  ext k hk; simp [invalidateAll]
@[simp] theorem invalidateAll_pres : (invalidateAll s).pres = s.pres := rfl
@[simp] theorem invalidateAll_res : (invalidateAll s).res = s.res := rfl
@[simp] theorem invalidateAll_q : (invalidateAll s).q = s.q := rfl
@[simp] theorem invalidateAll_txslot : (invalidateAll s).txslot = s.txslot := rfl
@[simp] theorem invalidateAll_cfg : (invalidateAll s).cfg = s.cfg := rfl
@[simp] theorem invalidateAll_input : (invalidateAll s).input = s.input := rfl
@[simp] theorem invalidateAll_busOut : (invalidateAll s).busOut = s.busOut := rfl
@[simp] theorem invalidateAll_hostOut : (invalidateAll s).hostOut = s.hostOut := rfl
@[simp] theorem invalidateAll_draws : (invalidateAll s).draws = s.draws := rfl

/-! `setPresent` -/

@[simp] theorem setPresent_state (a : DevNo) : (setPresent a s).state = s.state := rfl
@[simp] theorem setPresent_cnt (a : DevNo) : (setPresent a s).cnt = s.cnt := rfl
@[simp] theorem setPresent_rd (a : DevNo) : (setPresent a s).rd = s.rd := rfl
@[simp] theorem setPresent_wr (a : DevNo) : (setPresent a s).wr = s.wr := rfl
@[simp] theorem setPresent_target (a : DevNo) : (setPresent a s).target = s.target := rfl
@[simp] theorem setPresent_sweepEn (a : DevNo) : (setPresent a s).sweepEn = s.sweepEn := rfl
@[simp] theorem setPresent_updack (a : DevNo) : (setPresent a s).updack = s.updack := rfl
@[simp] theorem setPresent_err (a : DevNo) : (setPresent a s).err = s.err := rfl
@[simp] theorem setPresent_field (a : DevNo) : (setPresent a s).field = s.field := rfl
@[simp] theorem setPresent_pres (a : DevNo) : (setPresent a s).pres = if a = 0 then s.pres else s.pres ||| BitVec.ofNat 64 (2 ^ a.toNat) := rfl
@[simp] theorem setPresent_res (a : DevNo) : (setPresent a s).res = s.res := rfl
@[simp] theorem setPresent_q (a : DevNo) : (setPresent a s).q = s.q := rfl
@[simp] theorem setPresent_txslot (a : DevNo) : (setPresent a s).txslot = s.txslot := rfl
@[simp] theorem setPresent_cfg (a : DevNo) : (setPresent a s).cfg = s.cfg := rfl
@[simp] theorem setPresent_input (a : DevNo) : (setPresent a s).input = s.input := rfl
@[simp] theorem setPresent_busOut (a : DevNo) : (setPresent a s).busOut = s.busOut := rfl
@[simp] theorem setPresent_hostOut (a : DevNo) : (setPresent a s).hostOut = s.hostOut := rfl
@[simp] theorem setPresent_draws (a : DevNo) : (setPresent a s).draws = s.draws := rfl

/-! `toIdle` -/

@[simp] theorem toIdle_state (v : Nat) : (toIdle v s).state = .idle := rfl
@[simp] theorem toIdle_cnt (v : Nat) : (toIdle v s).cnt = v := rfl
@[simp] theorem toIdle_rd (v : Nat) : (toIdle v s).rd = s.rd := rfl
@[simp] theorem toIdle_wr (v : Nat) : (toIdle v s).wr = s.wr := rfl
@[simp] theorem toIdle_target (v : Nat) : (toIdle v s).target = s.target := rfl
@[simp] theorem toIdle_sweepEn (v : Nat) : (toIdle v s).sweepEn = s.sweepEn := rfl
@[simp] theorem toIdle_updack (v : Nat) : (toIdle v s).updack = s.updack := rfl
@[simp] theorem toIdle_err (v : Nat) : (toIdle v s).err = s.err := rfl
@[simp] theorem toIdle_field (v : Nat) : (toIdle v s).field = s.field := rfl
@[simp] theorem toIdle_pres (v : Nat) : (toIdle v s).pres = s.pres := rfl
@[simp] theorem toIdle_res (v : Nat) : (toIdle v s).res = s.res := rfl
@[simp] theorem toIdle_q (v : Nat) : (toIdle v s).q = s.q := rfl
@[simp] theorem toIdle_txslot (v : Nat) : (toIdle v s).txslot = s.txslot := rfl
@[simp] theorem toIdle_cfg (v : Nat) : (toIdle v s).cfg = s.cfg := rfl
@[simp] theorem toIdle_input (v : Nat) : (toIdle v s).input = s.input := rfl
@[simp] theorem toIdle_busOut (v : Nat) : (toIdle v s).busOut = s.busOut := rfl
@[simp] theorem toIdle_hostOut (v : Nat) : (toIdle v s).hostOut = s.hostOut := rfl
@[simp] theorem toIdle_draws (v : Nat) : (toIdle v s).draws = s.draws := rfl

/-! `toWaitForAck` -/

@[simp] theorem toWaitForAck_state (v : Nat) : (toWaitForAck v s).state = .waitForAck := rfl
@[simp] theorem toWaitForAck_cnt (v : Nat) : (toWaitForAck v s).cnt = v := rfl
@[simp] theorem toWaitForAck_rd (v : Nat) : (toWaitForAck v s).rd = s.rd := rfl
@[simp] theorem toWaitForAck_wr (v : Nat) : (toWaitForAck v s).wr = s.wr := rfl
@[simp] theorem toWaitForAck_target (v : Nat) : (toWaitForAck v s).target = s.target := rfl
@[simp] theorem toWaitForAck_sweepEn (v : Nat) : (toWaitForAck v s).sweepEn = s.sweepEn := rfl
@[simp] theorem toWaitForAck_updack (v : Nat) : (toWaitForAck v s).updack = s.updack := rfl
@[simp] theorem toWaitForAck_err (v : Nat) : (toWaitForAck v s).err = s.err := rfl
@[simp] theorem toWaitForAck_field (v : Nat) : (toWaitForAck v s).field = s.field := rfl
@[simp] theorem toWaitForAck_pres (v : Nat) : (toWaitForAck v s).pres = s.pres := rfl
@[simp] theorem toWaitForAck_res (v : Nat) : (toWaitForAck v s).res = s.res := rfl
@[simp] theorem toWaitForAck_q (v : Nat) : (toWaitForAck v s).q = s.q := rfl
@[simp] theorem toWaitForAck_txslot (v : Nat) : (toWaitForAck v s).txslot = s.txslot := rfl
@[simp] theorem toWaitForAck_cfg (v : Nat) : (toWaitForAck v s).cfg = s.cfg := rfl
@[simp] theorem toWaitForAck_input (v : Nat) : (toWaitForAck v s).input = s.input := rfl
@[simp] theorem toWaitForAck_busOut (v : Nat) : (toWaitForAck v s).busOut = s.busOut := rfl
@[simp] theorem toWaitForAck_hostOut (v : Nat) : (toWaitForAck v s).hostOut = s.hostOut := rfl
@[simp] theorem toWaitForAck_draws (v : Nat) : (toWaitForAck v s).draws = s.draws := rfl

/-! `advanceRd` -/

@[simp] theorem advanceRd_state : (advanceRd s).state = s.state := rfl
@[simp] theorem advanceRd_cnt : (advanceRd s).cnt = s.cnt := rfl
@[simp] theorem advanceRd_rd : (advanceRd s).rd = (s.rd + 1) % s.cfg.n := rfl
@[simp] theorem advanceRd_wr : (advanceRd s).wr = s.wr := rfl
@[simp] theorem advanceRd_target : (advanceRd s).target = s.target := rfl
@[simp] theorem advanceRd_sweepEn : (advanceRd s).sweepEn = s.sweepEn := rfl
@[simp] theorem advanceRd_updack : (advanceRd s).updack = s.updack := rfl
@[simp] theorem advanceRd_err : (advanceRd s).err = s.err := rfl
@[simp] theorem advanceRd_field : (advanceRd s).field = s.field := rfl
@[simp] theorem advanceRd_pres : (advanceRd s).pres = s.pres := rfl
@[simp] theorem advanceRd_res : (advanceRd s).res = s.res := rfl
@[simp] theorem advanceRd_q : (advanceRd s).q = s.q := rfl
@[simp] theorem advanceRd_txslot : (advanceRd s).txslot = s.txslot := rfl
@[simp] theorem advanceRd_cfg : (advanceRd s).cfg = s.cfg := rfl
@[simp] theorem advanceRd_input : (advanceRd s).input = s.input := rfl
@[simp] theorem advanceRd_busOut : (advanceRd s).busOut = s.busOut := rfl
@[simp] theorem advanceRd_hostOut : (advanceRd s).hostOut = s.hostOut := rfl
@[simp] theorem advanceRd_draws : (advanceRd s).draws = s.draws := rfl

/-! `present` -/

@[simp] theorem present_state (w : EventWord) : (present w s).state = s.state := rfl
@[simp] theorem present_cnt (w : EventWord) : (present w s).cnt = s.cnt := rfl
@[simp] theorem present_rd (w : EventWord) : (present w s).rd = s.rd := rfl
@[simp] theorem present_wr (w : EventWord) : (present w s).wr = s.wr := rfl
@[simp] theorem present_target (w : EventWord) : (present w s).target = s.target := rfl
@[simp] theorem present_sweepEn (w : EventWord) : (present w s).sweepEn = s.sweepEn := rfl
@[simp] theorem present_updack (w : EventWord) : (present w s).updack = s.updack := rfl
@[simp] theorem present_err (w : EventWord) : (present w s).err = s.err := rfl
@[simp] theorem present_field (w : EventWord) : (present w s).field = s.field := rfl
@[simp] theorem present_pres (w : EventWord) : (present w s).pres = s.pres := rfl
@[simp] theorem present_res (w : EventWord) : (present w s).res = s.res := rfl
@[simp] theorem present_q (w : EventWord) : (present w s).q = s.q := rfl
@[simp] theorem present_txslot (w : EventWord) : (present w s).txslot = s.txslot := rfl
@[simp] theorem present_cfg (w : EventWord) : (present w s).cfg = s.cfg := rfl
@[simp] theorem present_input (w : EventWord) : (present w s).input = [w] :: s.input := rfl
@[simp] theorem present_busOut (w : EventWord) : (present w s).busOut = s.busOut := rfl
@[simp] theorem present_hostOut (w : EventWord) : (present w s).hostOut = s.hostOut := rfl
@[simp] theorem present_draws (w : EventWord) : (present w s).draws = s.draws := rfl

end Sys2Proof.Machine
end

