-- ==== Sys2Proof/Laws/Ops.lean ====
section
/-! SUPPORT. What each shared operation of the machine can do, said once: its cases, and the fields it leaves
alone. -/

namespace Sys2Proof.Machine

variable (s : State)

/-! ## Reads that depend on few fields -/

theorem isEmpty_congr {s t : State} (hr : t.rd = s.rd) (hw : t.wr = s.wr) : isEmpty t = isEmpty s := by
  simp [isEmpty, hr, hw]

theorem isFull_congr {s t : State} (hr : t.rd = s.rd) (hw : t.wr = s.wr) (hc : t.cfg = s.cfg) :
    isFull t = isFull s := by
  simp [isFull, hr, hw, hc]

theorem count_congr {s t : State} (hr : t.rd = s.rd) (hw : t.wr = s.wr) (hc : t.cfg = s.cfg) :
    count t = count s := by
  simp [count, hr, hw, hc]

theorem head_congr {s t : State} (hr : t.rd = s.rd) (hq : t.q = s.q) : head t = head s := by
  simp [head, readEntry, hr, hq]

@[simp] theorem isEmpty_eq_true : isEmpty s = true ↔ s.wr = s.rd := by simp [isEmpty]

@[simp] theorem isEmpty_eq_false : isEmpty s = false ↔ s.wr ≠ s.rd := by simp [isEmpty]

@[simp] theorem isFull_eq_true : isFull s = true ↔ (s.wr + 1) % s.cfg.n = s.rd := by simp [isFull]

@[simp] theorem isFull_eq_false : isFull s = false ↔ (s.wr + 1) % s.cfg.n ≠ s.rd := by simp [isFull]

@[simp] theorem settling_eq_true : settling s = true ↔ s.state = .idle ∧ s.cnt ≠ 0 := by simp [settling]

/-- `count()` inside the ring, without the remainder (R76). -/
theorem count_eq (hr : s.rd < s.cfg.n) (hw : s.wr < s.cfg.n) :
    count s = if s.rd ≤ s.wr then s.wr - s.rd else s.wr + s.cfg.n - s.rd := by
  unfold count
  split
  · rw [Int.emod_eq_of_lt (by omega) (by omega)]
    omega
  · rw [← Int.add_emod_right, Int.emod_eq_of_lt (by omega) (by omega)]
    omega

/-! ## `push` -/

/-- `push` declines exactly on a full ring, and otherwise stores at `WR` and advances it (R77). -/
theorem push_cases (e : QEntry) :
    (isFull s = true ∧ push e s = none) ∨
    (isFull s = false ∧ push e s = some { s with q := s.q.set s.wr e, wr := (s.wr + 1) % s.cfg.n }) := by
  unfold push
  cases isFull s <;> simp [writeEntry]

theorem push_eq_none_iff (e : QEntry) : push e s = none ↔ isFull s = true := by
  rcases push_cases s e with ⟨h, h'⟩ | ⟨h, h'⟩ <;> simp [h, h']

theorem push_eq_some {e : QEntry} {s t : State} (h : push e s = some t) :
    isFull s = false ∧ t = { s with q := s.q.set s.wr e, wr := (s.wr + 1) % s.cfg.n } := by
  rcases push_cases s e with ⟨h1, h2⟩ | ⟨h1, h2⟩
  · simp [h2] at h
  · exact ⟨h1, by simpa [h2] using h.symm⟩

/-! ## `dispatch` -/

/-- The two outcomes of `dispatch()` (R171). -/
theorem dispatch_cases :
    (s.state = .idle ∧ s.wr ≠ s.rd ∧ s.cnt = 0 ∧
      dispatch s = { s with
        txslot := ⟨true, frameOf (head s)⟩
        busOut := s.busOut ++ [.txStart (frameOf (head s))]
        state := .waitForSend
        cnt := s.cfg.tSend }) ∨
    (¬ (s.state = .idle ∧ s.wr ≠ s.rd ∧ s.cnt = 0) ∧ dispatch s = s) := by
  unfold dispatch
  by_cases h : s.state = .idle ∧ isEmpty s = false ∧ s.cnt = 0
  · left
    rw [if_pos h]
    simp only [isEmpty_eq_false] at h
    exact ⟨h.1, h.2.1, h.2.2, rfl⟩
  · right
    rw [if_neg h]
    simp only [isEmpty_eq_false] at h
    exact ⟨h, rfl⟩

/-- `dispatch()` does nothing unless the engine is Idle with work and no countdown (R171). -/
theorem dispatch_of_not {s : State} (h : ¬ (s.state = .idle ∧ s.wr ≠ s.rd ∧ s.cnt = 0)) : dispatch s = s := by
  rcases dispatch_cases s with ⟨h1, h2, h3, _⟩ | ⟨_, h'⟩
  · exact absurd ⟨h1, h2, h3⟩ h
  · exact h'

/-! Fields that `dispatch` leaves alone. -/

@[simp] theorem dispatch_rd : (dispatch s).rd = s.rd := by rcases dispatch_cases s with ⟨_, _, _, h⟩ | ⟨_, h⟩ <;> rw [h]
@[simp] theorem dispatch_wr : (dispatch s).wr = s.wr := by rcases dispatch_cases s with ⟨_, _, _, h⟩ | ⟨_, h⟩ <;> rw [h]
@[simp] theorem dispatch_target : (dispatch s).target = s.target := by rcases dispatch_cases s with ⟨_, _, _, h⟩ | ⟨_, h⟩ <;> rw [h]
@[simp] theorem dispatch_sweepEn : (dispatch s).sweepEn = s.sweepEn := by rcases dispatch_cases s with ⟨_, _, _, h⟩ | ⟨_, h⟩ <;> rw [h]
@[simp] theorem dispatch_updack : (dispatch s).updack = s.updack := by rcases dispatch_cases s with ⟨_, _, _, h⟩ | ⟨_, h⟩ <;> rw [h]
@[simp] theorem dispatch_err : (dispatch s).err = s.err := by rcases dispatch_cases s with ⟨_, _, _, h⟩ | ⟨_, h⟩ <;> rw [h]
@[simp] theorem dispatch_field : (dispatch s).field = s.field := by rcases dispatch_cases s with ⟨_, _, _, h⟩ | ⟨_, h⟩ <;> rw [h]
@[simp] theorem dispatch_pres : (dispatch s).pres = s.pres := by rcases dispatch_cases s with ⟨_, _, _, h⟩ | ⟨_, h⟩ <;> rw [h]
@[simp] theorem dispatch_res : (dispatch s).res = s.res := by rcases dispatch_cases s with ⟨_, _, _, h⟩ | ⟨_, h⟩ <;> rw [h]
@[simp] theorem dispatch_q : (dispatch s).q = s.q := by rcases dispatch_cases s with ⟨_, _, _, h⟩ | ⟨_, h⟩ <;> rw [h]
@[simp] theorem dispatch_cfg : (dispatch s).cfg = s.cfg := by rcases dispatch_cases s with ⟨_, _, _, h⟩ | ⟨_, h⟩ <;> rw [h]
@[simp] theorem dispatch_input : (dispatch s).input = s.input := by rcases dispatch_cases s with ⟨_, _, _, h⟩ | ⟨_, h⟩ <;> rw [h]
@[simp] theorem dispatch_hostOut : (dispatch s).hostOut = s.hostOut := by rcases dispatch_cases s with ⟨_, _, _, h⟩ | ⟨_, h⟩ <;> rw [h]
@[simp] theorem dispatch_draws : (dispatch s).draws = s.draws := by rcases dispatch_cases s with ⟨_, _, _, h⟩ | ⟨_, h⟩ <;> rw [h]

/-! ## `retire` -/

/-- `retire` writes the slot its entry names and advances `RD` (R172). -/
theorem retire_eq (ok : Bool) (len : Len) (data : Payload) :
    retire ok len data s = { s with
      res := if (head s).rv then s.res.set (head s).rslot.toFin (slotOf ok len data) else s.res
      rd := (s.rd + 1) % s.cfg.n } := by
  unfold retire
  cases (head s).rv <;> rfl

/-! Fields that `retire` leaves alone. -/

@[simp] theorem retire_state (ok : Bool) (len : Len) (data : Payload) : (retire ok len data s).state = s.state := by rw [retire_eq]
@[simp] theorem retire_cnt (ok : Bool) (len : Len) (data : Payload) : (retire ok len data s).cnt = s.cnt := by rw [retire_eq]
@[simp] theorem retire_wr (ok : Bool) (len : Len) (data : Payload) : (retire ok len data s).wr = s.wr := by rw [retire_eq]
@[simp] theorem retire_target (ok : Bool) (len : Len) (data : Payload) : (retire ok len data s).target = s.target := by rw [retire_eq]
@[simp] theorem retire_sweepEn (ok : Bool) (len : Len) (data : Payload) : (retire ok len data s).sweepEn = s.sweepEn := by rw [retire_eq]
@[simp] theorem retire_updack (ok : Bool) (len : Len) (data : Payload) : (retire ok len data s).updack = s.updack := by rw [retire_eq]
@[simp] theorem retire_err (ok : Bool) (len : Len) (data : Payload) : (retire ok len data s).err = s.err := by rw [retire_eq]
@[simp] theorem retire_field (ok : Bool) (len : Len) (data : Payload) : (retire ok len data s).field = s.field := by rw [retire_eq]
@[simp] theorem retire_pres (ok : Bool) (len : Len) (data : Payload) : (retire ok len data s).pres = s.pres := by rw [retire_eq]
@[simp] theorem retire_q (ok : Bool) (len : Len) (data : Payload) : (retire ok len data s).q = s.q := by rw [retire_eq]
@[simp] theorem retire_txslot (ok : Bool) (len : Len) (data : Payload) : (retire ok len data s).txslot = s.txslot := by rw [retire_eq]
@[simp] theorem retire_cfg (ok : Bool) (len : Len) (data : Payload) : (retire ok len data s).cfg = s.cfg := by rw [retire_eq]
@[simp] theorem retire_input (ok : Bool) (len : Len) (data : Payload) : (retire ok len data s).input = s.input := by rw [retire_eq]
@[simp] theorem retire_busOut (ok : Bool) (len : Len) (data : Payload) : (retire ok len data s).busOut = s.busOut := by rw [retire_eq]
@[simp] theorem retire_hostOut (ok : Bool) (len : Len) (data : Payload) : (retire ok len data s).hostOut = s.hostOut := by rw [retire_eq]
@[simp] theorem retire_draws (ok : Bool) (len : Len) (data : Payload) : (retire ok len data s).draws = s.draws := by rw [retire_eq]

@[simp] theorem retire_rd (ok : Bool) (len : Len) (data : Payload) :
    (retire ok len data s).rd = (s.rd + 1) % s.cfg.n := by rw [retire_eq]

/-! ## Errors and recovery -/

/-- The field of the head's class loses its validity, nothing else changes (R173). -/
theorem invalidateHeadField_cases :
    (∃ k, fieldOf s.cfg (head s).cls = some k ∧ invalidateHeadField s = invalidateField k s) ∨
    (fieldOf s.cfg (head s).cls = none ∧ invalidateHeadField s = s) := by
  unfold invalidateHeadField
  cases fieldOf s.cfg (head s).cls <;> simp

/-! Fields that `invalidateHeadField` leaves alone. -/

@[simp] theorem invalidateHeadField_state : (invalidateHeadField s).state = s.state := by rcases invalidateHeadField_cases s with ⟨k, _, h⟩ | ⟨_, h⟩ <;> simp [h]
@[simp] theorem invalidateHeadField_cnt : (invalidateHeadField s).cnt = s.cnt := by rcases invalidateHeadField_cases s with ⟨k, _, h⟩ | ⟨_, h⟩ <;> simp [h]
@[simp] theorem invalidateHeadField_rd : (invalidateHeadField s).rd = s.rd := by rcases invalidateHeadField_cases s with ⟨k, _, h⟩ | ⟨_, h⟩ <;> simp [h]
@[simp] theorem invalidateHeadField_wr : (invalidateHeadField s).wr = s.wr := by rcases invalidateHeadField_cases s with ⟨k, _, h⟩ | ⟨_, h⟩ <;> simp [h]
@[simp] theorem invalidateHeadField_target : (invalidateHeadField s).target = s.target := by rcases invalidateHeadField_cases s with ⟨k, _, h⟩ | ⟨_, h⟩ <;> simp [h]
@[simp] theorem invalidateHeadField_sweepEn : (invalidateHeadField s).sweepEn = s.sweepEn := by rcases invalidateHeadField_cases s with ⟨k, _, h⟩ | ⟨_, h⟩ <;> simp [h]
@[simp] theorem invalidateHeadField_updack : (invalidateHeadField s).updack = s.updack := by rcases invalidateHeadField_cases s with ⟨k, _, h⟩ | ⟨_, h⟩ <;> simp [h]
@[simp] theorem invalidateHeadField_err : (invalidateHeadField s).err = s.err := by rcases invalidateHeadField_cases s with ⟨k, _, h⟩ | ⟨_, h⟩ <;> simp [h]
@[simp] theorem invalidateHeadField_pres : (invalidateHeadField s).pres = s.pres := by rcases invalidateHeadField_cases s with ⟨k, _, h⟩ | ⟨_, h⟩ <;> simp [h]
@[simp] theorem invalidateHeadField_res : (invalidateHeadField s).res = s.res := by rcases invalidateHeadField_cases s with ⟨k, _, h⟩ | ⟨_, h⟩ <;> simp [h]
@[simp] theorem invalidateHeadField_q : (invalidateHeadField s).q = s.q := by rcases invalidateHeadField_cases s with ⟨k, _, h⟩ | ⟨_, h⟩ <;> simp [h]
@[simp] theorem invalidateHeadField_txslot : (invalidateHeadField s).txslot = s.txslot := by rcases invalidateHeadField_cases s with ⟨k, _, h⟩ | ⟨_, h⟩ <;> simp [h]
@[simp] theorem invalidateHeadField_cfg : (invalidateHeadField s).cfg = s.cfg := by rcases invalidateHeadField_cases s with ⟨k, _, h⟩ | ⟨_, h⟩ <;> simp [h]
@[simp] theorem invalidateHeadField_input : (invalidateHeadField s).input = s.input := by rcases invalidateHeadField_cases s with ⟨k, _, h⟩ | ⟨_, h⟩ <;> simp [h]
@[simp] theorem invalidateHeadField_busOut : (invalidateHeadField s).busOut = s.busOut := by rcases invalidateHeadField_cases s with ⟨k, _, h⟩ | ⟨_, h⟩ <;> simp [h]
@[simp] theorem invalidateHeadField_hostOut : (invalidateHeadField s).hostOut = s.hostOut := by rcases invalidateHeadField_cases s with ⟨k, _, h⟩ | ⟨_, h⟩ <;> simp [h]
@[simp] theorem invalidateHeadField_draws : (invalidateHeadField s).draws = s.draws := by rcases invalidateHeadField_cases s with ⟨k, _, h⟩ | ⟨_, h⟩ <;> simp [h]

/-! Fields that `failHead` leaves alone. -/

@[simp] theorem failHead_state : (failHead s).state = s.state := by simp [failHead]
@[simp] theorem failHead_cnt : (failHead s).cnt = s.cnt := by simp [failHead]
@[simp] theorem failHead_wr : (failHead s).wr = s.wr := by simp [failHead]
@[simp] theorem failHead_target : (failHead s).target = s.target := by simp [failHead]
@[simp] theorem failHead_sweepEn : (failHead s).sweepEn = s.sweepEn := by simp [failHead]
@[simp] theorem failHead_updack : (failHead s).updack = s.updack := by simp [failHead]
@[simp] theorem failHead_err : (failHead s).err = s.err := by simp [failHead]
@[simp] theorem failHead_pres : (failHead s).pres = s.pres := by simp [failHead]
@[simp] theorem failHead_q : (failHead s).q = s.q := by simp [failHead]
@[simp] theorem failHead_txslot : (failHead s).txslot = s.txslot := by simp [failHead]
@[simp] theorem failHead_cfg : (failHead s).cfg = s.cfg := by simp [failHead]
@[simp] theorem failHead_input : (failHead s).input = s.input := by simp [failHead]
@[simp] theorem failHead_busOut : (failHead s).busOut = s.busOut := by simp [failHead]
@[simp] theorem failHead_hostOut : (failHead s).hostOut = s.hostOut := by simp [failHead]
@[simp] theorem failHead_draws : (failHead s).draws = s.draws := by simp [failHead]

@[simp] theorem failHead_rd : (failHead s).rd = (s.rd + 1) % s.cfg.n := by simp [failHead]

/-! Fields that `recover` leaves alone. -/

@[simp] theorem recover_cnt (e : ErrorOutcome) : (recover e s).cnt = s.cnt := by simp [recover]
@[simp] theorem recover_wr (e : ErrorOutcome) : (recover e s).wr = s.wr := by simp [recover]
@[simp] theorem recover_target (e : ErrorOutcome) : (recover e s).target = s.target := by simp [recover]
@[simp] theorem recover_sweepEn (e : ErrorOutcome) : (recover e s).sweepEn = s.sweepEn := by simp [recover]
@[simp] theorem recover_updack (e : ErrorOutcome) : (recover e s).updack = s.updack := by simp [recover]
@[simp] theorem recover_pres (e : ErrorOutcome) : (recover e s).pres = s.pres := by simp [recover]
@[simp] theorem recover_q (e : ErrorOutcome) : (recover e s).q = s.q := by simp [recover]
@[simp] theorem recover_txslot (e : ErrorOutcome) : (recover e s).txslot = s.txslot := by simp [recover]
@[simp] theorem recover_cfg (e : ErrorOutcome) : (recover e s).cfg = s.cfg := by simp [recover]
@[simp] theorem recover_input (e : ErrorOutcome) : (recover e s).input = s.input := by simp [recover]
@[simp] theorem recover_busOut (e : ErrorOutcome) : (recover e s).busOut = s.busOut := by simp [recover]
@[simp] theorem recover_hostOut (e : ErrorOutcome) : (recover e s).hostOut = s.hostOut := by simp [recover]
@[simp] theorem recover_draws (e : ErrorOutcome) : (recover e s).draws = s.draws := by simp [recover]

@[simp] theorem recover_state (e : ErrorOutcome) : (recover e s).state = .idle := rfl
@[simp] theorem recover_rd (e : ErrorOutcome) : (recover e s).rd = (s.rd + 1) % s.cfg.n := by simp [recover]
@[simp] theorem recover_err (e : ErrorOutcome) : (recover e s).err = s.err ||| e.mask := by simp [recover]

/-! ## Host operations -/

/-- The two outcomes of a host enqueue (R140). -/
theorem hostEnqueue_cases (e : QEntry) :
    (∃ t, push e s = some t ∧ hostEnqueue e s = answer .ok (dispatch t)) ∨
    (isFull s = true ∧ hostEnqueue e s = answer .queueFull (raise .queueFull s)) := by
  rcases push_cases s e with ⟨h1, h2⟩ | ⟨_, h2⟩
  · exact .inr ⟨h1, by simp [hostEnqueue, h2]⟩
  · exact .inl ⟨_, h2, by simp [hostEnqueue, h2]⟩

/-- The two outcomes of the enqueue that ends SETADDR and ENUM (R142, R143). -/
theorem engineEnqueue_cases (e : QEntry) :
    (∃ t, push e s = some t ∧ engineEnqueue e s = answer .ok (dispatch t)) ∨
    (isFull s = true ∧ engineEnqueue e s = answer .queueFull (dispatch (raise .queueFull s))) := by
  rcases push_cases s e with ⟨h1, h2⟩ | ⟨_, h2⟩
  · exact .inr ⟨h1, by simp [engineEnqueue, h2]⟩
  · exact .inl ⟨_, h2, by simp [engineEnqueue, h2]⟩

/-! ## Received frames -/

/-- The three outcomes of a chained poll (R205). -/
theorem chainPoll_cases (k : Fin 8) :
    ((nextPoll s.cfg k = none ∨ s.sweepEn = false) ∧ chainPoll k s = s) ∨
    (∃ j t, nextPoll s.cfg k = some j ∧ s.sweepEn = true ∧
      push (bareEntry s.target s.cfg.clsStatus[j]) s = some t ∧ chainPoll k s = t) ∨
    (∃ j, nextPoll s.cfg k = some j ∧ s.sweepEn = true ∧ isFull s = true ∧
      chainPoll k s = raise .chainDrop s) := by
  unfold chainPoll
  cases hn : nextPoll s.cfg k with
  | none => simp
  | some j =>
    cases hs : s.sweepEn with
    | false => simp
    | true =>
      rcases push_cases s (bareEntry s.target s.cfg.clsStatus[j]) with ⟨h1, h2⟩ | ⟨h1, h2⟩
      · simp only [h2]
        exact .inr (.inr ⟨j, rfl, trivial, h1, rfl⟩)
      · simp only [h2]
        exact .inr (.inl ⟨j, _, rfl, trivial, h2, rfl⟩)

/-- A chained poll never moves `RD` (R205). -/
@[simp] theorem chainPoll_rd (k : Fin 8) : (chainPoll k s).rd = s.rd := by
  rcases chainPoll_cases s k with ⟨_, h⟩ | ⟨_, _, _, _, hp, h⟩ | ⟨_, _, _, _, h⟩
  · rw [h]
  · obtain ⟨_, rfl⟩ := push_eq_some hp
    rw [h]
  · simp [h]

/-- A field update is an acceptance or an invalidation (R203). -/
theorem updateField_cases (k : Fin 9) (a : DevNo) (len : Len) (data : Payload) :
    (a = s.target ∧ updateField k a len data s = acceptField k (decodeValue len data) s) ∨
    (a ≠ s.target ∧ updateField k a len data s = invalidateField k s) := by
  unfold updateField
  by_cases h : a = s.target <;> simp [h]

/-! Fields that `updateField` leaves alone. -/

@[simp] theorem updateField_state (k : Fin 9) (a : DevNo) (len : Len) (data : Payload) : (updateField k a len data s).state = s.state := by rcases updateField_cases s k a len data with ⟨_, h⟩ | ⟨_, h⟩ <;> simp [h]
@[simp] theorem updateField_cnt (k : Fin 9) (a : DevNo) (len : Len) (data : Payload) : (updateField k a len data s).cnt = s.cnt := by rcases updateField_cases s k a len data with ⟨_, h⟩ | ⟨_, h⟩ <;> simp [h]
@[simp] theorem updateField_rd (k : Fin 9) (a : DevNo) (len : Len) (data : Payload) : (updateField k a len data s).rd = s.rd := by rcases updateField_cases s k a len data with ⟨_, h⟩ | ⟨_, h⟩ <;> simp [h]
@[simp] theorem updateField_wr (k : Fin 9) (a : DevNo) (len : Len) (data : Payload) : (updateField k a len data s).wr = s.wr := by rcases updateField_cases s k a len data with ⟨_, h⟩ | ⟨_, h⟩ <;> simp [h]
@[simp] theorem updateField_target (k : Fin 9) (a : DevNo) (len : Len) (data : Payload) : (updateField k a len data s).target = s.target := by rcases updateField_cases s k a len data with ⟨_, h⟩ | ⟨_, h⟩ <;> simp [h]
@[simp] theorem updateField_sweepEn (k : Fin 9) (a : DevNo) (len : Len) (data : Payload) : (updateField k a len data s).sweepEn = s.sweepEn := by rcases updateField_cases s k a len data with ⟨_, h⟩ | ⟨_, h⟩ <;> simp [h]
@[simp] theorem updateField_updack (k : Fin 9) (a : DevNo) (len : Len) (data : Payload) : (updateField k a len data s).updack = s.updack := by rcases updateField_cases s k a len data with ⟨_, h⟩ | ⟨_, h⟩ <;> simp [h]
@[simp] theorem updateField_err (k : Fin 9) (a : DevNo) (len : Len) (data : Payload) : (updateField k a len data s).err = s.err := by rcases updateField_cases s k a len data with ⟨_, h⟩ | ⟨_, h⟩ <;> simp [h]
@[simp] theorem updateField_pres (k : Fin 9) (a : DevNo) (len : Len) (data : Payload) : (updateField k a len data s).pres = s.pres := by rcases updateField_cases s k a len data with ⟨_, h⟩ | ⟨_, h⟩ <;> simp [h]
@[simp] theorem updateField_res (k : Fin 9) (a : DevNo) (len : Len) (data : Payload) : (updateField k a len data s).res = s.res := by rcases updateField_cases s k a len data with ⟨_, h⟩ | ⟨_, h⟩ <;> simp [h]
@[simp] theorem updateField_q (k : Fin 9) (a : DevNo) (len : Len) (data : Payload) : (updateField k a len data s).q = s.q := by rcases updateField_cases s k a len data with ⟨_, h⟩ | ⟨_, h⟩ <;> simp [h]
@[simp] theorem updateField_txslot (k : Fin 9) (a : DevNo) (len : Len) (data : Payload) : (updateField k a len data s).txslot = s.txslot := by rcases updateField_cases s k a len data with ⟨_, h⟩ | ⟨_, h⟩ <;> simp [h]
@[simp] theorem updateField_cfg (k : Fin 9) (a : DevNo) (len : Len) (data : Payload) : (updateField k a len data s).cfg = s.cfg := by rcases updateField_cases s k a len data with ⟨_, h⟩ | ⟨_, h⟩ <;> simp [h]
@[simp] theorem updateField_input (k : Fin 9) (a : DevNo) (len : Len) (data : Payload) : (updateField k a len data s).input = s.input := by rcases updateField_cases s k a len data with ⟨_, h⟩ | ⟨_, h⟩ <;> simp [h]
@[simp] theorem updateField_busOut (k : Fin 9) (a : DevNo) (len : Len) (data : Payload) : (updateField k a len data s).busOut = s.busOut := by rcases updateField_cases s k a len data with ⟨_, h⟩ | ⟨_, h⟩ <;> simp [h]
@[simp] theorem updateField_hostOut (k : Fin 9) (a : DevNo) (len : Len) (data : Payload) : (updateField k a len data s).hostOut = s.hostOut := by rcases updateField_cases s k a len data with ⟨_, h⟩ | ⟨_, h⟩ <;> simp [h]
@[simp] theorem updateField_draws (k : Fin 9) (a : DevNo) (len : Len) (data : Payload) : (updateField k a len data s).draws = s.draws := by rcases updateField_cases s k a len data with ⟨_, h⟩ | ⟨_, h⟩ <;> simp [h]

/-! Fields that `complete` leaves alone. -/

@[simp] theorem complete_wr (ok : Bool) (len : Len) (data : Payload) : (complete ok len data s).wr = s.wr := by simp [complete]
@[simp] theorem complete_target (ok : Bool) (len : Len) (data : Payload) : (complete ok len data s).target = s.target := by simp [complete]
@[simp] theorem complete_sweepEn (ok : Bool) (len : Len) (data : Payload) : (complete ok len data s).sweepEn = s.sweepEn := by simp [complete]
@[simp] theorem complete_updack (ok : Bool) (len : Len) (data : Payload) : (complete ok len data s).updack = s.updack := by simp [complete]
@[simp] theorem complete_err (ok : Bool) (len : Len) (data : Payload) : (complete ok len data s).err = s.err := by simp [complete]
@[simp] theorem complete_field (ok : Bool) (len : Len) (data : Payload) : (complete ok len data s).field = s.field := by simp [complete]
@[simp] theorem complete_pres (ok : Bool) (len : Len) (data : Payload) : (complete ok len data s).pres = s.pres := by simp [complete]
@[simp] theorem complete_q (ok : Bool) (len : Len) (data : Payload) : (complete ok len data s).q = s.q := by simp [complete]
@[simp] theorem complete_txslot (ok : Bool) (len : Len) (data : Payload) : (complete ok len data s).txslot = s.txslot := by simp [complete]
@[simp] theorem complete_cfg (ok : Bool) (len : Len) (data : Payload) : (complete ok len data s).cfg = s.cfg := by simp [complete]
@[simp] theorem complete_input (ok : Bool) (len : Len) (data : Payload) : (complete ok len data s).input = s.input := by simp [complete]
@[simp] theorem complete_busOut (ok : Bool) (len : Len) (data : Payload) : (complete ok len data s).busOut = s.busOut := by simp [complete]
@[simp] theorem complete_hostOut (ok : Bool) (len : Len) (data : Payload) : (complete ok len data s).hostOut = s.hostOut := by simp [complete]
@[simp] theorem complete_draws (ok : Bool) (len : Len) (data : Payload) : (complete ok len data s).draws = s.draws := by simp [complete]

@[simp] theorem complete_state (ok : Bool) (len : Len) (data : Payload) :
    (complete ok len data s).state = .idle := rfl
@[simp] theorem complete_cnt (ok : Bool) (len : Len) (data : Payload) : (complete ok len data s).cnt = 0 := rfl
@[simp] theorem complete_rd (ok : Bool) (len : Len) (data : Payload) :
    (complete ok len data s).rd = (s.rd + 1) % s.cfg.n := by simp [complete]

/-! ## Fetch -/

/-- `pickFirst` takes one word out of an instant and keeps the others in their order (R242). -/
theorem pickFirst_eq_none_iff (ws : List EventWord) : pickFirst ws = none ↔ ws = [] := by
  cases ws with
  | nil => simp [pickFirst]
  | cons w ws =>
    simp only [pickFirst]
    cases pickFirst ws with
    | none => simp
    | some p =>
      obtain ⟨v, rest⟩ := p
      by_cases h : priority w ≤ priority v <;> simp [h]

/-- A presented word is fetched next. -/
theorem fetch_present (w : EventWord) : fetch (present w s) = some (w, { s with input := [] :: s.input }) := rfl

/-- With nothing presented nothing is fetched. -/
theorem fetch_of_nil {s : State} (h : s.input = []) : fetch s = none := by simp [fetch, takeInput, h]

/-! ## The ring keeps its canonical form -/

theorem resetOf_ring_wf (c : Config) : Memory.wf c.n (State.resetOf c).q := by
  simp [Memory.wf, State.resetOf]

theorem writeEntry_ring_wf {n i : Nat} {e : QEntry} {s : State} (h : Memory.wf n s.q) :
    Memory.wf n (writeEntry i e s).q := by
  simpa [Memory.wf, writeEntry] using h

theorem push_ring_wf {n : Nat} {e : QEntry} {s t : State} (h : Memory.wf n s.q) (hp : push e s = some t) :
    Memory.wf n t.q := by
  obtain ⟨_, rfl⟩ := push_eq_some hp
  simpa [Memory.wf] using h

theorem scramble_ring_wf (draw : Nat) : Memory.wf s.cfg.n (scramble draw s).q := by
  simp [Memory.wf, scramble]

/-- Reading a ring element back after writing it. -/
theorem readEntry_writeEntry_same {i : Nat} {e : QEntry} {s : State} (h : i < s.q.length) :
    readEntry (writeEntry i e s) i = e := by
  simp [readEntry, writeEntry, List.getD, h]

/-- Writing a ring element leaves every other one alone. -/
theorem readEntry_writeEntry_ne {i j : Nat} {e : QEntry} {s : State} (h : i ≠ j) :
    readEntry (writeEntry i e s) j = readEntry s j := by
  simp [readEntry, writeEntry, List.getD, h]

/-- Reading a result slot back after writing it. -/
theorem readSlot_writeSlot_same (r : SlotIx) (v : ResSlot) : readSlot (writeSlot r v s) r = v := by
  simp [readSlot, writeSlot]

/-- Writing a result slot leaves every other one alone. -/
theorem readSlot_writeSlot_ne {r r' : SlotIx} (v : ResSlot) (h : r ≠ r') :
    readSlot (writeSlot r v s) r' = readSlot s r' := by
  have hv : r.toNat ≠ r'.toNat := fun hv => h (BitVec.eq_of_toNat_eq hv)
  simp [readSlot, writeSlot, hv]

end Sys2Proof.Machine
end

