-- ==== Sys2Proof/Laws/Duties.lean ====
section
/-! SUPPORT. What the duties of the host and the platform buy (R280): for each premise that speaks of one event, a
claim that takes it as a hypothesis and is false without it. -/

namespace Sys2Proof.Machine

variable {s t : State}

/-! ## The order and the context of events -/

/-- R281, R246: if waiting holds nothing back, the TICKs that were raised are presented. -/
theorem ticksRecur_of_nothingHeldBack {n : Nat} {raised presented : List Instr}
    (h : NothingHeldBack raised presented) (hn : TicksRecur n raised) : TicksRecur n presented := by
  subst h
  exact Nat.le_trans hn (List.filter_sublist.count_le _)

/-- R281: an event issued in the interrupt context is no host operation. -/
theorem not_foreground_of_issuedInContext {issued : List (Context × Instr)} {i : Instr}
    (h : IssuedInContext issued) (hi : (Context.interrupt, i) ∈ issued) :
    (eventOf i).context ≠ .foreground := by
  intro hf
  rcases h _ hi with h | h <;> simp [hf] at h

/-- R282: no lock covers an ENQR together with an RDRES that waits for it. -/
theorem not_waiting_of_lockReleased {sections : List (List Instr)} {events : List Instr}
    (h : LockReleased sections) (he : events ∈ sections) (cls : Cls) (a : DevNo) (len : Len) (data : Payload)
    (r : SlotIx) : ¬ (.enqr cls a len data r ∈ events ∧ .rdres r ∈ events) := by
  have hl := h _ he
  rintro ⟨h1, h2⟩
  match events, hl with
  | [], _ => simp at h1
  | [i], _ =>
    simp only [List.mem_singleton] at h1 h2
    exact absurd (h1.trans h2.symm) (by simp)

/-! ## The host's resources -/

/-- R283: an ENQR with a legal length into an existing slot that the host owns is not refused for its operands. -/
theorem enqrBadArg_of_hostOwnsSlot {r : SlotIx} {len : Len} (h : HostOwnsSlot s r) (hr : r.toNat < s.cfg.r)
    (hl : len.toNat ≤ 8) : enqrBadArg len r s = false := by
  simp only [HostOwnsSlot] at h
  simp [enqrBadArg, lenReserved, h]
  omega

/-- R286: with room the push succeeds. -/
theorem push_isSome_of_hasRoom (h : HasRoom s) (e : QEntry) : (push e s).isSome := by
  rcases push_cases s e with ⟨h1, _⟩ | ⟨_, h2⟩
  · simp [HasRoom, h1] at h
  · simp [h2]

/-- R284: once `PRES` may be trusted, an enumeration reply no longer changes it. -/
theorem rxEnum_of_presTrusted (h : PresTrusted s) (a : DevNo) : rxEnum a s = s := by
  simp [rxEnum, h.1]

/-- R291: a wait that takes FREE for a failure ends at a RESET. -/
theorem wait_ends_at_reset {outcome : SlotState → Option Bool} (h : WaitAccepts outcome)
    (ht : exec .reset s = .next t) (r : SlotIx) : outcome (readSlot t r).st = some false := by
  have hres : t.res = Vector.replicate 4 ResSlot.reset := by
    simp only [exec, execReset, Host.Outcome.next.injEq] at ht
    subst ht
    rfl
  have : readSlot t r = ResSlot.reset := by simp [readSlot, hres]
  rw [this]
  exact h.2.2.2

/-! ## The adapter -/

/-- A frame outstanding after `dispatch()` where none was before it is a new one. -/
theorem launches_dispatch_of_free (hv : s.txslot.v = false) (hd : (dispatch s).txslot.v = true) :
    launches (dispatch s) = launches s + 1 := by
  rcases dispatch_cases s with ⟨_, _, _, h⟩ | ⟨_, h⟩
  · rw [h]
    simp [launches]
  · simp [h, hv] at hd

/-- R290, R252, R253: once the transmit slot has been freed, no TXC is allowed for a frame handed out before, also
where `dispatch()` has launched the next entry in the same event. -/
theorem not_txcWhileSending_after_free (hv : s.txslot.v = false) {sent : Nat} (hs : sent ≤ launches s) :
    ¬ TxcWhileSending (dispatch s) .txc sent := by
  intro h
  obtain ⟨hd, hl⟩ := h rfl
  have := launches_dispatch_of_free hv hd
  omega

/-- R290, R253: the TXC of a frame that the send time-out aborted is excluded. -/
theorem not_txcWhileSending_of_aborted (hs : s.state = .waitForSend) (hc : s.cnt = 1)
    (ht : exec .tick s = .next t) : ¬ TxcWhileSending t .txc (launches s) := by
  have he : exec .tick s = .next (dispatch (sendTimeout { s with cnt := 0 })) := by
    simp [exec, execTick, countDown, hc, expire, hs]
  cases he.symm.trans ht
  exact not_txcWhileSending_after_free (by simp [sendTimeout]) (by simp [launches, sendTimeout])

/-- R290, R252: a second TXC for one frame is excluded. -/
theorem not_txcWhileSending_twice (hs : s.state = .waitForSend) (ht : exec .txc s = .next t) :
    ¬ TxcWhileSending t .txc (launches s) := by
  have key : ∀ f : State → State, (∀ u, (f u).txslot = u.txslot) → (∀ u, (f u).busOut = u.busOut) →
      Host.Outcome.next (txComplete f s) = (.next t : Host.Outcome State Fault Refusal) →
      ¬ TxcWhileSending t .txc (launches s) := by
    intro f hf hb h
    cases h
    rw [txComplete, if_pos hs]
    exact not_txcWhileSending_after_free (by simp [hf]) (by simp [launches, hb])
  simp only [exec, execTxc, if_pos hs] at ht
  split at ht
  · exact key _ (fun u => by simp) (fun u => by simp) ht
  · exact key _ (fun u => by simp) (fun u => by simp) ht
  · split at ht
    · exact key _ (fun u => by simp) (fun u => by simp) ht
    · exact key _ (fun u => by simp) (fun u => by simp) ht
  · exact key _ (fun u => by simp) (fun u => by simp) ht

/-! ## Received frames -/

theorem receivedFrame_statusRow (c : Config) (k : Fin 8) (a : DevNo) (len : Len) (data : Payload) :
    receivedFrame c (statusRow k a len data) = some (.status k, a, len) := by
  fin_cases k <;> rfl

/-- R285: a well-formed status frame that answers the poll in flight retires it, so the poll it chains takes the
place of one that is gone. -/
theorem rxStatus_rd_of_noUnsolicitedStatus {k : Fin 8} {a : DevNo} {len : Len} {data : Payload}
    (h : NoUnsolicitedStatus s (statusRow k a len data)) (hl : len.toNat = s.cfg.expLen[k.castSucc]) :
    (rxStatus k a len data s).rd = (s.rd + 1) % s.cfg.n := by
  obtain ⟨h1, h2⟩ := h k a len (receivedFrame_statusRow ..) hl
  have hr : (statusFrame k.castSucc a len data s).rd = (s.rd + 1) % s.cfg.n := by
    simp [statusFrame, retireByStatus, classOfField, h1, head_congr (t := updateField _ _ _ _ s) (s := s), h2]
  rw [rxStatus, if_pos hl, chainPoll_rd, hr]

/-- R287: a status frame from the device monitored now leaves every valid field valid. -/
theorem updateField_valid_of_statusFromTarget {k : Fin 8} {a : DevNo} {len : Len} {data : Payload}
    (h : StatusFromTarget s (statusRow k a len data)) (j : Fin 9) (hj : s.field[j].valid = true) :
    (updateField k.castSucc a len data s).field[j].valid = true := by
  have ha := h _ a len (receivedFrame_statusRow ..) (.inl ⟨k, rfl⟩)
  by_cases hjk : j = k.castSucc
  · subst hjk
    simp [updateField, ha, acceptField]
  · have : k.castSucc.val ≠ j.val := fun h => hjk (Fin.ext h.symm)
    simp_all [updateField, acceptField, Vector.getElem_set_ne]

/-- R292: with no other bootloader master, the update-ack flag is set for a command of `UPD_LONG` in flight. -/
theorem updLong_of_onlyBootloaderMaster {a : DevNo} {len : Len} {data : Payload}
    (h : OnlyBootloaderMaster s (.rxfUpdack a len data)) (h0 : NoStaleUpdack s)
    (ht : exec (.rxfUpdack a len data) s = .next t) (hu : t.updack = true) :
    s.state = .waitForAck ∧ (head s).cls ∈ s.cfg.updLong := by
  by_cases hl : len.toNat ≤ 8
  · exact h a len rfl hl
  · have hr : lenReserved len = true := by simp [lenReserved]; omega
    simp only [exec, execRxfUpdack, receive, hr, if_true, Host.Outcome.next.injEq] at ht
    subst ht
    simp [NoStaleUpdack] at h0
    simp [h0] at hu

/-- R293: an acknowledgement for the command in flight ends no read: every slot keeps its contents. -/
theorem rxAck_res_of_ackIsForHead {a : DevNo} {len : Len} {data : Payload}
    (h : AckIsForHead s (.rxfAck a len data)) (hl : len.toNat ≤ 8) : (rxAck s).res = s.res := by
  unfold rxAck
  split
  · next hs =>
    obtain ⟨_, hrv, _⟩ := h _ a len rfl (.inl rfl) hl hs
    simp [complete, retire_eq, hrv]
  · rfl

/-- R294: a status frame of the length the platform expects is not malformed. -/
theorem rxStatus_of_expLenAgrees {k : Fin 8} {a : DevNo} {len : Len} {data : Payload}
    (h : ExpLenAgrees s.cfg (statusRow k a len data)) :
    rxStatus k a len data s = chainPoll k (statusFrame k.castSucc a len data s) := by
  rw [rxStatus, if_pos ((h _ a len (receivedFrame_statusRow ..)).1 k rfl)]

/-- R289: while the sweep is fresh, RDSTAT of a chained field gives a valid value. -/
theorem rdstat_of_sweepFresh (h : SweepFresh s) (k : Fin 8) :
    exec (.rdstat (BitVec.ofNat 4 k.val)) s =
      .next (answer (.stat s.field[k.castSucc].value true) s) := by
  have := h k
  fin_cases k <;> simp_all [exec, execRdstat, SweepFresh]

/-- R295: a value written and read with agreeing scales comes back exactly (R72). -/
theorem read_updateField_of_scalesAgree {α : Type} {write : Fin 9 → α → Payload} {read : Fin 9 → BitVec 32 → α}
    (h : ScalesAgree s.cfg write read) (k : Fin 9) (x : α) (len : Len) (hl : len.toNat = s.cfg.expLen[k]) :
    read k (updateField k s.target len (write k x) s).field[k].value = x := by
  have := h k x
  simp_all [updateField, acceptField, decodeValue]

end Sys2Proof.Machine
end

