-- ==== Sys2Proof/Laws/PerInstr.lean ====
section
/-! SUPPORT. Statements about every instruction, one lemma per constructor. -/

namespace Sys2Proof.Laws

/-- The `OP` column of R107. -/
def opcodeOf : Machine.Event → BitVec 4
  | .tick => 0
  | .txc => 1
  | .rxf => 2
  | .enq => 3
  | .enqr => 4
  | .setaddr => 5
  | .enum => 6
  | .sweep => 7
  | .rdstat => 8
  | .rdpres => 9
  | .rdres => 10
  | .takeupd => 11
  | .rdreg => 12
  | .clrerr => 13
  | .reserved14 => 14
  | .reset => 15

namespace OpcodeField

/-- The word an instruction is encoded as carries, in `W[103:100]`, the opcode R107 gives its event, under every
parameters. -/
def Statement (i : Instr) : Prop :=
  ∀ c : Config, (encode c i).extractLsb' 100 4 = opcodeOf (Machine.eventOf i)

/-- The opcode of an encoded word is the one of its fields. -/
theorem opcode_encode (c : Config) (i : Instr) : (encode c i).extractLsb' 100 4 = (encodeFields c i).op := by
  have h := EventFields.ofWord_toWord (encodeFields c i)
  exact congrArg EventFields.op h

theorem tick : Statement (.tick) :=
  fun c => opcode_encode c _

theorem txc : Statement (.txc) :=
  fun c => opcode_encode c _

theorem rxf : ∀ x1 x2 x3, Statement (.rxf x1 x2 x3) :=
  fun _ _ _ c => opcode_encode c _

theorem enq : ∀ x1 x2 x3 x4, Statement (.enq x1 x2 x3 x4) :=
  fun _ _ _ _ c => opcode_encode c _

theorem enqr : ∀ x1 x2 x3 x4 x5, Statement (.enqr x1 x2 x3 x4 x5) :=
  fun _ _ _ _ _ c => opcode_encode c _

theorem setaddr : ∀ x1, Statement (.setaddr x1) :=
  fun _ c => opcode_encode c _

theorem enum : Statement (.enum) :=
  fun c => opcode_encode c _

theorem sweep : ∀ x1, Statement (.sweep x1) :=
  fun _ c => opcode_encode c _

theorem rdstat : ∀ x1, Statement (.rdstat x1) :=
  fun _ c => opcode_encode c _

theorem rdpres : Statement (.rdpres) :=
  fun c => opcode_encode c _

theorem rdres : ∀ x1, Statement (.rdres x1) :=
  fun _ c => opcode_encode c _

theorem takeupd : Statement (.takeupd) :=
  fun c => opcode_encode c _

theorem rdreg : ∀ x1, Statement (.rdreg x1) :=
  fun _ c => opcode_encode c _

theorem clrerr : ∀ x1, Statement (.clrerr x1) :=
  fun _ c => opcode_encode c _

theorem reserved14 : ∀ x1, Statement (.reserved14 x1) :=
  by
  intro rest c
  rw [opcode_encode]
  simp only [encodeFields, EventFields.ofWord, opcodeOf, Machine.eventOf]
  apply BitVec.eq_of_getLsbD_eq
  intro i hi
  simp only [BitVec.getLsbD_extractLsb', BitVec.getLsbD_append]
  grind

theorem reset : Statement (.reset) :=
  fun c => opcode_encode c _

theorem rxfStatusVout : ∀ x1 x2 x3, Statement (.rxfStatusVout x1 x2 x3) :=
  fun _ _ _ c => opcode_encode c _

theorem rxfStatusVbus : ∀ x1 x2 x3, Statement (.rxfStatusVbus x1 x2 x3) :=
  fun _ _ _ c => opcode_encode c _

theorem rxfStatusCurrent : ∀ x1 x2 x3, Statement (.rxfStatusCurrent x1 x2 x3) :=
  fun _ _ _ c => opcode_encode c _

theorem rxfStatusTemp : ∀ x1 x2 x3, Statement (.rxfStatusTemp x1 x2 x3) :=
  fun _ _ _ c => opcode_encode c _

theorem rxfStatusPosition : ∀ x1 x2 x3, Statement (.rxfStatusPosition x1 x2 x3) :=
  fun _ _ _ c => opcode_encode c _

theorem rxfStatusSpeed : ∀ x1 x2 x3, Statement (.rxfStatusSpeed x1 x2 x3) :=
  fun _ _ _ c => opcode_encode c _

theorem rxfStatusLimit : ∀ x1 x2 x3, Statement (.rxfStatusLimit x1 x2 x3) :=
  fun _ _ _ c => opcode_encode c _

theorem rxfStatusFault : ∀ x1 x2 x3, Statement (.rxfStatusFault x1 x2 x3) :=
  fun _ _ _ c => opcode_encode c _

theorem rxfFwver : ∀ x1 x2 x3, Statement (.rxfFwver x1 x2 x3) :=
  fun _ _ _ c => opcode_encode c _

theorem rxfEnumReply : ∀ x1 x2 x3, Statement (.rxfEnumReply x1 x2 x3) :=
  fun _ _ _ c => opcode_encode c _

theorem rxfAck : ∀ x1 x2 x3, Statement (.rxfAck x1 x2 x3) :=
  fun _ _ _ c => opcode_encode c _

theorem rxfUpdack : ∀ x1 x2 x3, Statement (.rxfUpdack x1 x2 x3) :=
  fun _ _ _ c => opcode_encode c _

theorem rxfOther : ∀ x1 x2 x3 x4, Statement (.rxfOther x1 x2 x3 x4) :=
  fun _ _ _ _ c => opcode_encode c _

theorem txcEnum : ∀ x1, Statement (.txcEnum x1) :=
  fun _ c => opcode_encode c _

theorem txcUntagged : ∀ x1 x2, Statement (.txcUntagged x1 x2) :=
  fun _ _ c => opcode_encode c _

theorem txcTaggedLongDl : ∀ x1, Statement (.txcTaggedLongDl x1) :=
  fun _ c => opcode_encode c _

theorem txcTaggedLongSd : ∀ x1 x2, Statement (.txcTaggedLongSd x1 x2) :=
  fun _ _ c => opcode_encode c _

theorem txcTagged : ∀ x1 x2, Statement (.txcTagged x1 x2) :=
  fun _ _ c => opcode_encode c _

end OpcodeField

end Sys2Proof.Laws
end

