-- ==== Sys2Proof/Machine/Trace.lean ====
section
/-! DEFINITION. The textual syntax of an event trace (30_encoding.md R126): one line for an event, with the
outputs after `->` and the result after `=>`. An ID29 row is written as the event it refines. -/

namespace Sys2Proof.Machine

/-- The hexadecimal digits of `w`, most significant first, at least one. -/
def hexDigits (w : Nat) : String := String.ofList (Nat.toDigits 16 w)

/-- A number in C notation. -/
def hex (w : Nat) : String := "0x" ++ hexDigits w

/-- One payload byte as two hexadecimal digits. -/
def hexByte (b : Nat) : String := if b < 16 then "0" ++ hexDigits b else hexDigits b

/-- `len=<n> data=<b0:b1:...>`, empty when the length is 0; at most the eight bytes there are. -/
def payloadText (len : Len) (data : Payload) : String :=
  "len=" ++ toString len.toNat ++ " data=" ++
    String.intercalate ":" ((List.range (min len.toNat 8)).map fun i =>
      hexByte ((data.extractLsb' (8 * i) 8).toNat))

/-- `a=<n> cls=<23-bit>`. -/
def commandText (cls : Cls) (a : DevNo) : String :=
  "a=" ++ toString a.toNat ++ " cls=" ++ hex cls.toNat

/-- `RXF` by class and device number. -/
def rxfText (cls : Cls) (a : DevNo) (len : Len) (data : Payload) : String :=
  "RXF cls=" ++ hex cls.toNat ++ " a=" ++ toString a.toNat ++ " " ++ payloadText len data

/-- The trace line of an event; a reserved word spells none, so it has an empty line. -/
def traceLine (c : Config) : Instr → String
  | .tick => "TICK"
  | .txc => "TXC"
  | .rxf id len data => "RXF id=" ++ hex id.toNat ++ " " ++ payloadText len data
  | .enq cls a len data => "ENQ " ++ commandText cls a ++ " " ++ payloadText len data
  | .enqr cls a len data r =>
    "ENQR " ++ commandText cls a ++ " " ++ payloadText len data ++ " slot=" ++ toString r.toNat
  | .setaddr a => "SETADDR a=" ++ toString a.toNat
  | .enum => "ENUM"
  | .sweep b => if b then "SWEEP on" else "SWEEP off"
  | .rdstat k => "RDSTAT k=" ++ toString k.toNat
  | .rdpres => "RDPRES"
  | .rdres r => "RDRES slot=" ++ toString r.toNat
  | .takeupd => "TAKEUPD"
  | .rdreg n => "RDREG n=" ++ toString n.toNat
  | .clrerr m => "CLRERR mask=" ++ hex m.toNat
  | .reserved14 _ => ""
  | .reset => "RESET"
  | .rxfStatusVout a len data => rxfText c.clsStatus[0] a len data
  | .rxfStatusVbus a len data => rxfText c.clsStatus[1] a len data
  | .rxfStatusCurrent a len data => rxfText c.clsStatus[2] a len data
  | .rxfStatusTemp a len data => rxfText c.clsStatus[3] a len data
  | .rxfStatusPosition a len data => rxfText c.clsStatus[4] a len data
  | .rxfStatusSpeed a len data => rxfText c.clsStatus[5] a len data
  | .rxfStatusLimit a len data => rxfText c.clsStatus[6] a len data
  | .rxfStatusFault a len data => rxfText c.clsStatus[7] a len data
  | .rxfFwver a len data => rxfText c.clsFwver a len data
  | .rxfEnumReply a len data => rxfText c.clsEnumReply a len data
  | .rxfAck a len data => rxfText c.clsAck a len data
  | .rxfUpdack a len data => rxfText c.clsUpdack a len data
  | .rxfOther cls a len data => rxfText cls a len data
  | .txcEnum _ => "TXC"
  | .txcUntagged _ _ => "TXC"
  | .txcTaggedLongDl _ => "TXC"
  | .txcTaggedLongSd _ _ => "TXC"
  | .txcTagged _ _ => "TXC"

/-- `-> TX id=<..> len=<..> data=<..>` or `-> ABORT`. -/
def outputText : BusOut → String
  | .txStart f => "-> TX id=" ++ hex f.id.toNat ++ " " ++ payloadText f.len f.data
  | .txAbort => "-> ABORT"

/-- `=> <result>`. -/
def resultText : HostResult → String
  | .ok => "=> Ok"
  | .queueFull => "=> QueueFull"
  | .badArg => "=> BadArg"
  | .stat v b => "=> (" ++ hex v.toNat ++ ", " ++ (if b then "1" else "0") ++ ")"
  | .bitmap p => "=> " ++ hex p.toNat
  | .slot w => "=> " ++ hex w.toNat
  | .bit b => if b then "=> 1" else "=> 0"
  | .value v => "=> " ++ hex v.toNat

end Sys2Proof.Machine
end

