-- ==== Sys2Proof/Tests/Slice0.lean ====
section
/-! SUPPORT. Tests of this model. Decoding: words written out in 95_test_vectors.md sections 2.1 and 5. Single
steps: expected values from the traces of 95_test_vectors.md, named in each docstring. Witnesses: for every
statement with hypotheses, a state and operands that meet them. -/

namespace Sys2Proof.Tests

open Sys2Proof.Machine

/-! ## Well-formedness refuses an ill-formed term of each check -/

/-- A payload byte behind the length. -/
theorem test_wf_rxf_tail : (Instr.rxf 0x1010405 1 0x0C80).wellFormed .reference = false := by decide
theorem test_wf_enq_tail : (Instr.enq 0x040410 5 0 1).wellFormed .reference = false := by decide
theorem test_wf_enqr_tail : (Instr.enqr 0x040410 5 7 0x0100000000000000 0).wellFormed .reference = false := by
  decide
/-- A reserved length is an operand of the event, refused by the event and not by the encoding (R121). -/
theorem test_wf_enq_reserved_length : (Instr.enq 0x040410 5 9 0xFF).wellFormed .reference = true := by decide
/-- The reserved opcode. -/
theorem test_wf_reserved14 : (Instr.reserved14 0).wellFormed .reference = false := by decide
/-- A row is reached only by a frame of a legal length, with zeros behind its payload. -/
theorem test_wf_row_length : (Instr.rxfStatusVout 5 9 0).wellFormed .reference = false := by decide
theorem test_wf_row_tail : (Instr.rxfAck 5 0 1).wellFormed .reference = false := by decide
/-- Kind OTHER excludes the classes of the rows above it. -/
theorem test_wf_other_class : (Instr.rxfOther 0x040417 5 0 0).wellFormed .reference = false := by decide
/-- The enumeration class is not in the untagged row. -/
theorem test_wf_untagged_enum : (Instr.txcUntagged 1 0).wellFormed .reference = false := by decide
/-- A download row needs a member of `UPD_LONG`. -/
theorem test_wf_long_dl_empty :
    (Instr.txcTaggedLongDl 5).wellFormed { Config.reference with updLong := [] } = false := by decide
/-- The download class is not in the send-data row, and neither is a class outside `UPD_LONG`. -/
theorem test_wf_long_sd_first : (Instr.txcTaggedLongSd 0x040432 5).wellFormed .reference = false := by decide
theorem test_wf_long_sd_short : (Instr.txcTaggedLongSd 0x040441 5).wellFormed .reference = false := by decide
/-- The default row of the frame just sent takes neither an untagged class nor one of `UPD_LONG`. -/
theorem test_wf_tagged_untagged : (Instr.txcTagged 0x000002 0).wellFormed .reference = false := by decide
theorem test_wf_tagged_long : (Instr.txcTagged 0x040433 5).wellFormed .reference = false := by decide

/-! ## Decoding: a word of every constructor (95_test_vectors.md section 5) -/

theorem test_decode_tick : decode 0x00000000000000000000000000 = .ok .tick := by decide
theorem test_decode_txc : decode 0x10000000000000000000000000 = .ok .txc := by decide
theorem test_decode_rxf :
    decode 0x20808803A000000000000C0000 = .ok (.rxf 0x1011007 4 0x00018000) := by decide
theorem test_decode_enq :
    decode 0x30808822900000000000001008 = .ok (.enq 0x040441 5 2 0x0201) := by decide
theorem test_decode_enqr :
    decode 0x40808262800000000000000004 = .ok (.enqr 0x040413 5 0 0 2) := by decide
theorem test_decode_setaddr : decode 0x50000002800000000000000000 = .ok (.setaddr 5) := by decide
theorem test_decode_enum : decode 0x60000000000000000000000000 = .ok .enum := by decide
theorem test_decode_sweep : decode 0x70000000000000000000000001 = .ok (.sweep true) := by decide
theorem test_decode_rdstat : decode 0x80000000480000000000000000 = .ok (.rdstat 9) := by decide
theorem test_decode_rdpres : decode 0x90000000000000000000000000 = .ok .rdpres := by decide
theorem test_decode_rdres : decode 0xA0000000000000000000000006 = .ok (.rdres 3) := by decide
theorem test_decode_takeupd : decode 0xB0000000000000000000000000 = .ok .takeupd := by decide
theorem test_decode_rdreg : decode 0xC0000000380000000000000000 = .ok (.rdreg 7) := by decide
theorem test_decode_clrerr : decode 0xD00000000000000000000001F8 = .ok (.clrerr 0x3F) := by decide
theorem test_decode_reserved14 : decode 0xE0000000000000000000000000 = .error .opcode14 := by decide
theorem test_decode_reset : decode 0xF0000000000000000000000000 = .ok .reset := by decide

/-- The word taken apart in section 2.1, put together by the encoder. -/
theorem test_encode_rxf : encode .reference (.rxf 0x1010405 2 0x0C80) = 0x20808202900000000000006400 := by decide
/-- The encoder of a row gives the word of the event it refines. -/
theorem test_encode_row :
    encode .reference (.rxfStatusVout 5 2 0x0C80) = 0x20808202900000000000006400 := by decide

/-- The three other reserved words of section 5. -/
theorem test_decode_unused_b : decode 0x00000000000000000000000001 = .error .unusedField := by decide
theorem test_decode_tail : decode 0x30808202800000000000000008 = .error .payloadTail := by decide
theorem test_decode_unused_rslot : decode 0x90000000000000000000000002 = .error .unusedField := by decide

/-! The ID29 rows: identifiers of sections 2.1 and 5. -/

theorem test_rx_vout : decodeRx .reference 0x1010405 2 0x0C80 = .rxfStatusVout 5 2 0x0C80 := by decide
theorem test_rx_vbus : decodeRx .reference 0x1010446 2 0x0C00 = .rxfStatusVbus 6 2 0x0C00 := by decide
theorem test_rx_current : decodeRx .reference 0x1010485 2 0x0140 = .rxfStatusCurrent 5 2 0x0140 := by decide
theorem test_rx_temp : decodeRx .reference 0x10104C5 2 0x1900 = .rxfStatusTemp 5 2 0x1900 := by decide
theorem test_rx_position :
    decodeRx .reference 0x1010505 4 0x28000 = .rxfStatusPosition 5 4 0x28000 := by decide
theorem test_rx_speed : decodeRx .reference 0x1010545 4 0x640000 = .rxfStatusSpeed 5 4 0x640000 := by decide
theorem test_rx_limit : decodeRx .reference 0x1010585 1 3 = .rxfStatusLimit 5 1 3 := by decide
theorem test_rx_fault : decodeRx .reference 0x10105C5 2 0 = .rxfStatusFault 5 2 0 := by decide
theorem test_rx_fwver : decodeRx .reference 0x1010805 4 0x6B = .rxfFwver 5 4 0x6B := by decide
theorem test_rx_enum_reply : decodeRx .reference 0x000007F 0 0 = .rxfEnumReply 63 0 0 := by decide
theorem test_rx_ack : decodeRx .reference 0x1010C05 0 0 = .rxfAck 5 0 0 := by decide
theorem test_rx_updack : decodeRx .reference 0x1010C45 0 0 = .rxfUpdack 5 0 0 := by decide
theorem test_rx_other : decodeRx .reference 0x1011007 4 0x18000 = .rxfOther 0x040440 7 4 0x18000 := by decide
theorem test_tx_enum : decodeTx .reference 0x0000040 = .txcEnum 0 := by decide
theorem test_tx_untagged : decodeTx .reference 0x0000080 = .txcUntagged 2 0 := by decide
/-- The largest untagged class, and the smallest tagged one (section 2.1). -/
theorem test_tx_untagged_largest : decodeTx .reference 0x000FFC0 = .txcUntagged 0x3FF 0 := by decide
theorem test_tx_tagged_smallest : decodeTx .reference 0x0010000 = .txcTagged 0x000400 0 := by decide
theorem test_tx_long_dl : decodeTx .reference 0x1010C85 = .txcTaggedLongDl 5 := by decide
theorem test_tx_long_sd : decodeTx .reference 0x1010CC5 = .txcTaggedLongSd 0x040433 5 := by decide
theorem test_tx_tagged : decodeTx .reference 0x1011045 = .txcTagged 0x040441 5 := by decide

/-- What the host asks: an event word, a received identifier, a sent one, a reserved word. -/
theorem test_table_event : decodeTableWord 104 0xD0000000000000000000000020 = some (.clrerr 4) := by decide
theorem test_table_received : decodeTableWord 32 0x1010405 = some (.rxfStatusVout 5 0 0) := by decide
theorem test_table_sent : decodeTableWord 32 0x1010C80 = some (.txcTaggedLongDl 0) := by decide
theorem test_table_reserved : decodeTableWord 104 0xE0000000000000000000000000 = none := by decide

/-! ## Payloads and identifiers (section 2.1) -/

theorem test_assembly : identOf 0x040410 5 = 0x1010405 := by decide
theorem test_le_two : decodeValue 2 0x0C80 = 0x00000C80 := by decide
theorem test_le_no_sign : decodeValue 2 0xFFFF = 0x0000FFFF := by decide
theorem test_le_four : decodeValue 4 0x00028000 = 0x00028000 := by decide

/-! ## States for the tests -/

/-- The reference parameters with a ring of `n` elements. -/
def ring (n : Nat) : Config := { Config.reference with n := n }

/-- Right after reset, with a ring of four. -/
def idle : State := State.resetOf (ring 4)

/-- The settling window, `cnt` ticks before its close. -/
def window (cnt : Nat) : State := { idle with cnt := cnt }

/-- One command in flight, at index 0 of a ring of `n`. -/
def flight (n : Nat) (st : EngineState) (cnt : Nat) (e : QEntry) : State :=
  { State.resetOf (ring n) with
    state := st
    cnt := cnt
    wr := 1
    q := e :: List.replicate (n - 1) QEntry.blank
    txslot := ⟨st == .waitForSend, frameOf e⟩
    res := if e.rv then (Vector.replicate 4 ResSlot.reset).set e.rslot.toFin ResSlot.preset
      else Vector.replicate 4 ResSlot.reset }

/-- `SET` to device 5. -/
def setCmd : QEntry := bareEntry 5 0x040441
/-- A VOUT poll of device 5 with result slot 1. -/
def voutRead : QEntry := ⟨5, 0x040410, 0, 0, true, 1⟩
/-- A parameter read of device 7 with result slot 0. -/
def paramRead : QEntry := ⟨7, 0x040440, 0, 0, true, 0⟩
/-- The broadcast of an untagged class. -/
def bcast : QEntry := bareEntry 0 0x000002
/-- A firmware-version query. -/
def fwverQuery : QEntry := bareEntry 5 0x040420
/-- The enumeration request. -/
def enumReq : QEntry := bareEntry 0 0x000001

/-- The next state of an instruction, if there is one. -/
def after (i : Instr) (s : State) : Option State :=
  match exec i s with
  | .next t => some t
  | .fault _ => none
  | .refused _ => none

/-- The columns STATE, CNT, RD, WR, FL and ER of the spec's traces. -/
structure Columns where
  state : EngineState
  cnt : Nat
  rd : Nat
  wr : Nat
  flags : BitVec 32
  err : BitVec 6
  deriving DecidableEq, Repr

/-- The columns of a state. -/
def columns (t : State) : Columns := ⟨t.state, t.cnt, t.rd, t.wr, flagsWord t, t.err⟩

/-! ## Single steps: the scheduler -/

/-- V-R, last line: the send time-out. -/
theorem test_tick_send_timeout : (after .tick (flight 4 .waitForSend 1 setCmd)).map
    (fun t => (columns t, t.busOut)) = some (⟨.idle, 0, 1, 1, 8, 2⟩, [.txAbort]) := by decide
/-- V-F: the response time-out; P3: the slot holds the TIMEOUT marker. -/
theorem test_tick_ack_timeout : (after .tick (flight 4 .waitForAck 1 paramRead)).map
    (fun t => (columns t, readSlot t 0)) = some (⟨.idle, 0, 1, 1, 8, 4⟩, ⟨.timeout, 0, 0⟩) := by decide
/-- V-H: the TXC of `SET`. -/
theorem test_txc_tagged : (after .txc (flight 4 .waitForSend 2 setCmd)).map columns
    = some ⟨.waitForAck, 10, 0, 1, 0, 0⟩ := by decide
/-- V-I: TXC outside WaitForSend. -/
theorem test_txc_idle : after .txc idle = some idle := by decide
/-- V-S: the TXC of ENUM opens the window. -/
theorem test_txc_enum : (after (.txcEnum 0) (flight 4 .waitForSend 2 enumReq)).map columns
    = some ⟨.idle, 80, 1, 1, 0x0C, 0⟩ := by decide
/-- V-I: the TXC of an untagged command. -/
theorem test_txc_untagged : (after (.txcUntagged 2 0) (flight 4 .waitForSend 2 bcast)).map columns
    = some ⟨.idle, 0, 1, 1, 8, 0⟩ := by decide
/-- V-U: the long time-out. -/
theorem test_txc_long_dl : (after (.txcTaggedLongDl 5) (flight 4 .waitForSend 2 (bareEntry 5 0x040432))).map
    columns = some ⟨.waitForAck, 50, 0, 1, 0, 0⟩ := by decide
theorem test_txc_long_sd : (after (.txcTaggedLongSd 0x040433 5)
    (flight 4 .waitForSend 2 (bareEntry 5 0x040433))).map columns = some ⟨.waitForAck, 50, 0, 1, 0, 0⟩ := by decide
theorem test_txc_tagged_row : (after (.txcTagged 0x040441 5) (flight 4 .waitForSend 2 setCmd)).map columns
    = some ⟨.waitForAck, 10, 0, 1, 0, 0⟩ := by decide

/-! ## Single steps: the demultiplexer -/

/-- V-K: an unsolicited VOUT frame from the target. -/
theorem test_rxf : (after (.rxf 0x1010401 2 0x1234) idle).map (fun t => (columns t, t.field[0], t.busOut))
    = some (⟨.waitForSend, 2, 0, 1, 2, 0⟩, ⟨0x1234, true⟩, [.txStart ⟨0x1010441, 0, 0⟩]) := by decide
/-- V-F: a VOUT frame of an unexpected length. -/
theorem test_rxf_malformed : (after (.rxf 0x1010405 1 0x80) (flight 4 .waitForAck 10 setCmd)).map columns
    = some ⟨.waitForAck, 10, 0, 1, 0, 8⟩ := by decide
/-- V-Q: the reply of another device retires the read with the TIMEOUT marker and invalidates the field. -/
theorem test_rxf_vout_other_device : (after (.rxfStatusVout 6 2 0x0C00) (flight 2 .waitForAck 10 voutRead)).map
    (fun t => (t.field[0], readSlot t 1, t.rd)) = some (⟨0, false⟩, ⟨.timeout, 0, 0⟩, 1) := by decide
/-- V-R: a VBUS frame chains the CURRENT poll. -/
theorem test_rxf_vbus : (after (.rxfStatusVbus 1 2 0x0C00) idle).map (fun t => (t.field[1], t.busOut))
    = some (⟨0xC00, true⟩, [.txStart ⟨0x1010481, 0, 0⟩]) := by decide
/-- P6, with device 1 the target: CURRENT, TEMP, POSITION, SPEED and LIMIT. -/
theorem test_rxf_current : (after (.rxfStatusCurrent 1 2 0x0140) idle).map (fun t => (t.field[2], t.busOut))
    = some (⟨0x140, true⟩, [.txStart ⟨0x10104C1, 0, 0⟩]) := by decide
theorem test_rxf_temp : (after (.rxfStatusTemp 1 2 0x1900) idle).map (fun t => (t.field[3], t.busOut))
    = some (⟨0x1900, true⟩, [.txStart ⟨0x1010501, 0, 0⟩]) := by decide
theorem test_rxf_position : (after (.rxfStatusPosition 1 4 0x28000) idle).map (fun t => (t.field[4], t.busOut))
    = some (⟨0x28000, true⟩, [.txStart ⟨0x1010541, 0, 0⟩]) := by decide
theorem test_rxf_speed : (after (.rxfStatusSpeed 1 4 0x640000) idle).map (fun t => (t.field[5], t.busOut))
    = some (⟨0x640000, true⟩, [.txStart ⟨0x1010581, 0, 0⟩]) := by decide
theorem test_rxf_limit : (after (.rxfStatusLimit 1 1 3) idle).map (fun t => (t.field[6], t.busOut))
    = some (⟨3, true⟩, [.txStart ⟨0x10105C1, 0, 0⟩]) := by decide
/-- V-M1 and V-M: the end of the chain with and without the wrap. -/
theorem test_rxf_fault : (after (.rxfStatusFault 1 2 1) idle).map (fun t => (t.field[7], t.busOut))
    = some (⟨1, true⟩, [.txStart ⟨0x1010401, 0, 0⟩]) := by decide
theorem test_rxf_fault_no_wrap : (after (.rxfStatusFault 1 2 1)
    (State.resetOf { ring 2 with chainWrap := false })).map columns = some ⟨.idle, 0, 0, 0, 8, 0⟩ := by decide
/-- P6: the firmware-version reply retires its query. -/
theorem test_rxf_fwver : (after (.rxfFwver 5 4 0x6B) { flight 4 .waitForAck 10 fwverQuery with target := 5 }).map
    (fun t => (columns t, t.field[8])) = some (⟨.idle, 0, 1, 1, 8, 0⟩, ⟨0x6B, true⟩) := by decide
/-- V-S: device 63 sets bit 63, device 0 none. -/
theorem test_rxf_enum_reply : (after (.rxfEnumReply 63 0 0) (window 80)).map (·.pres)
    = some 0x8000000000000000 := by decide
theorem test_rxf_enum_reply_zero : after (.rxfEnumReply 0 0 0) (window 80) = some (window 80) := by decide
/-- V-H and V-P: the acknowledgement of any device, and what it leaves in the slot. -/
theorem test_rxf_ack : (after (.rxfAck 9 0 0) (flight 4 .waitForAck 10 paramRead)).map
    (fun t => (columns t, readSlot t 0)) = some (⟨.idle, 0, 1, 1, 8, 0⟩, ⟨.timeout, 0, 0⟩) := by decide
/-- V-J: the flag is set in Idle. -/
theorem test_rxf_updack : (after (.rxfUpdack 9 0 0) idle).map columns = some ⟨.idle, 0, 0, 0, 9, 0⟩ := by decide
/-- V-X: the class from another device is ignored; P3: the right one delivers its payload. -/
theorem test_rxf_other_ignored : after (.rxfOther 0x040440 6 0 0) (flight 4 .waitForAck 10 paramRead)
    = some (flight 4 .waitForAck 10 paramRead) := by decide
theorem test_rxf_other : (after (.rxfOther 0x040440 7 4 0x18000) (flight 4 .waitForAck 10 paramRead)).map
    (fun t => (columns t, readSlot t 0)) = some (⟨.idle, 0, 1, 1, 8, 0⟩, ⟨.done, 4, 0x18000⟩) := by decide
/-- V-N: a chained poll that finds the ring full. -/
theorem test_rxf_chain_drop : (after (.rxfStatusVout 1 2 1) (flight 2 .waitForSend 2 setCmd)).map
    (fun t => (columns t, t.field[0])) = some (⟨.waitForSend, 2, 0, 1, 0x12, 0x10⟩, ⟨1, true⟩) := by decide

/-! ## Single steps: the host -/

/-- V-H: ENQ launches at once; V-A: a reserved length. -/
theorem test_enq : (after (.enq 0x040441 5 1 1) idle).map (fun t => (columns t, t.busOut, t.hostOut))
    = some (⟨.waitForSend, 2, 0, 1, 2, 0⟩, [.txStart ⟨0x1011045, 1, 1⟩], [.ok]) := by decide
theorem test_enq_bad_length : (after (.enq 0x040410 5 9 0) idle).map (fun t => (columns t, t.hostOut))
    = some (⟨.idle, 0, 0, 0, 8, 0x20⟩, [.badArg]) := by decide
/-- V-D. -/
theorem test_enqr : (after (.enqr 0x040440 7 0 0 0) idle).map (fun t => (columns t, readSlot t 0, t.busOut))
    = some (⟨.waitForSend, 2, 0, 1, 2, 0⟩, ⟨.pending, 0, 0⟩, [.txStart ⟨0x1011007, 0, 0⟩]) := by decide
theorem test_enqr_pending : (after (.enqr 0x040440 7 0 0 0) (flight 4 .waitForSend 2 paramRead)).map
    (fun t => (columns t, t.hostOut)) = some (⟨.waitForSend, 2, 0, 1, 2, 0x20⟩, [.badArg]) := by decide
/-- V-C: the fields are invalidated, their values kept; V-O: on a full ring. -/
theorem test_setaddr : (after (.setaddr 5) { idle with field := idle.field.set 8 ⟨0x6B, true⟩ }).map
    (fun t => (t.target, t.field[8], t.busOut)) = some (5, ⟨0x6B, false⟩, [.txStart ⟨0x1010805, 0, 0⟩]) := by decide
theorem test_setaddr_full : (after (.setaddr 9) (flight 2 .waitForSend 2 setCmd)).map
    (fun t => (columns t, t.target, t.hostOut)) = some (⟨.waitForSend, 2, 0, 1, 0x12, 1⟩, 9, [.queueFull]) := by
  decide
/-- V-S and V-O. -/
theorem test_enum : (after .enum { idle with pres := 0xE }).map (fun t => (t.pres, t.busOut, t.hostOut))
    = some (0, [.txStart ⟨0x40, 0, 0⟩], [.ok]) := by decide
theorem test_enum_full : (after .enum { flight 2 .waitForSend 2 setCmd with pres := 0xE }).map
    (fun t => (t.pres, t.err, t.hostOut)) = some (0, 1, [.queueFull]) := by decide
/-- V-L. -/
theorem test_sweep : (after (.sweep false) idle).map (fun t => (columns t, t.sweepEn, t.hostOut))
    = some (⟨.idle, 0, 0, 0, 8, 0⟩, false, [.ok]) := by decide
/-- V-RD and V-C. -/
theorem test_rdstat : (after (.rdstat 8) { idle with field := idle.field.set 8 ⟨0x6B, true⟩ }).map (·.hostOut)
    = some [.stat 0x6B true] := by decide
theorem test_rdstat_bad : (after (.rdstat 9) idle).map (fun t => (t.err, t.hostOut))
    = some (0x20, [.badArg]) := by decide
/-- P2: the bitmap of the responders 1, 2 and 3. -/
theorem test_rdpres : (after .rdpres { idle with pres := 0xE }).map (·.hostOut) = some [.bitmap 0xE] := by decide
/-- R105: `ST ‖ LEN ‖ DATA64` of V-Q's `DONE{2, 00:19}`; V-R2: a slot that does not exist. -/
theorem test_rdres : (after (.rdres 1) { idle with res := idle.res.set 1 ⟨.done, 2, 0x1900⟩ }).map (·.hostOut)
    = some [.slot ((2 : BitVec 2) ++ (2 : BitVec 4) ++ (0x1900 : BitVec 64))] := by decide
theorem test_rdres_beyond : (after (.rdres 3) (State.resetOf { ring 2 with r := 3 })).map
    (fun t => (t.err, t.hostOut)) = some (0x20, [.badArg]) := by decide
/-- V-J. -/
theorem test_takeupd : (after .takeupd { idle with updack := true }).map (fun t => (t.updack, t.hostOut))
    = some (false, [.bit true]) := by decide
theorem test_rdreg_flags : (after (.rdreg 6) { idle with updack := true }).map (·.hostOut)
    = some [.value 9] := by decide
/-- V-RD: a register that does not exist. -/
theorem test_rdreg_reserved : (after (.rdreg 9) idle).map (fun t => (t.err, t.hostOut))
    = some (0x20, [.badArg]) := by decide
/-- V-V2: a partial mask. -/
theorem test_clrerr : (after (.clrerr 4) { idle with err := 0x25 }).map (fun t => (t.err, t.hostOut))
    = some (0x21, [.ok]) := by decide
/-- V-Z: RESET with a command in flight; no abort is emitted. -/
theorem test_reset_event : (after .reset { flight 4 .waitForSend 2 setCmd with target := 9 }).map
    (fun t => (columns t, t.target, t.busOut)) = some (⟨.idle, 0, 0, 0, 8, 0⟩, 1, []) := by decide

/-! ## Fetch -/

/-- R242: TXC before RXF before TICK before a host operation, whatever order they are presented in. -/
theorem test_fetch_order : (takeInput [[], [encode .reference (.sweep true), encode .reference .tick,
    encode .reference .txc, encode .reference (.rxf 0x1010401 0 0)]]).map (decode ·.1) = some (.ok .txc) := by decide
theorem test_step_event : step (State.reset.withFetchWord 104 0x70000000000000000000000000) =
    exec (.sweep false) { State.reset with input := [[]] } := rfl
theorem test_step_received : step (State.reset.withFetchWord 32 0x1010405) =
    exec (.rxf 0x1010405 0 0) { State.reset with input := [[]] } := rfl
/-- A download command placed as the frame being sent: the next step is its TXC (R184). -/
theorem test_step_sent : (match step (State.reset.withFetchWord 32 0x1010C80) with
    | .next t => some (columns t)
    | .fault _ => none
    | .refused _ => none) = some ⟨.waitForAck, 50, 0, 1, 0, 0⟩ := by decide
theorem test_step_reserved : step (State.reset.withFetchWord 104 0xE0000000000000000000000000) =
    .refused (.reservedWord .opcode14) := rfl
theorem test_step_nothing_presented : step State.reset = .next State.reset := rfl

/-! ## Witnesses: states and operands that meet the hypotheses of each statement -/

/-- A VOUT poll with a result slot, being sent and awaiting its reply. -/
def sendRead : State := flight 4 .waitForSend 2 voutRead
def waitRead : State := flight 4 .waitForAck 10 voutRead
/-- A parameter read being sent: tagged, with the short time-out. -/
def sendParam : State := flight 4 .waitForSend 2 paramRead
def waitParam : State := flight 4 .waitForAck 10 paramRead
/-- A download command being sent: the long time-out. -/
def sendLong : State := flight 4 .waitForSend 2 (bareEntry 5 0x040432)
/-- A full ring, of two elements. -/
def full : State := flight 2 .waitForSend 2 setCmd
/-- A full ring whose head is a VOUT poll awaiting its reply. -/
def fullWait : State := flight 2 .waitForAck 1 voutRead

theorem reference_valid : Config.reference.Valid := by
  refine ⟨by decide, by decide, by decide, by decide, by decide, by decide, by decide, by decide, by decide,
    by decide, ?_, by decide⟩
  intro cls h
  simp [Config.reference, Vector.toList] at h
  rcases h with h | h | h | h | h | h | h | h | h | h | h <;> subst h <;> decide

/-- The reference parameters meet their constraints with a ring of any legal size. -/
theorem ring_valid (n : Nat) (h : 2 ≤ n) : (ring n).Valid := by
  obtain ⟨_, rest⟩ := reference_valid
  exact ⟨h, rest⟩

theorem inv_idle : Inv idle := by
  constructor
  case config => exact ring_valid 4 (by decide)
  case ring => constructor <;> decide
  all_goals decide

theorem inv_window_last : Inv (window 1) := by
  constructor
  case config => exact ring_valid 4 (by decide)
  case ring => constructor <;> decide
  all_goals decide

theorem inv_window_first : Inv (window 80) := by
  constructor
  case config => exact ring_valid 4 (by decide)
  case ring => constructor <;> decide
  all_goals decide

theorem inv_sendRead : Inv sendRead := by
  constructor
  case config => exact ring_valid 4 (by decide)
  case ring => constructor <;> decide
  all_goals decide

theorem inv_waitRead : Inv waitRead := by
  constructor
  case config => exact ring_valid 4 (by decide)
  case ring => constructor <;> decide
  all_goals decide

theorem inv_sendParam : Inv sendParam := by
  constructor
  case config => exact ring_valid 4 (by decide)
  case ring => constructor <;> decide
  all_goals decide

theorem inv_waitParam : Inv waitParam := by
  constructor
  case config => exact ring_valid 4 (by decide)
  case ring => constructor <;> decide
  all_goals decide

theorem inv_sendLong : Inv sendLong := by
  constructor
  case config => exact ring_valid 4 (by decide)
  case ring => constructor <;> decide
  all_goals decide

theorem inv_full : Inv full := by
  constructor
  case config => exact ring_valid 2 (by decide)
  case ring => constructor <;> decide
  all_goals decide

theorem inv_fullWait : Inv fullWait := by
  constructor
  case config => exact ring_valid 2 (by decide)
  case ring => constructor <;> decide
  all_goals decide

theorem inv_presented : Inv (present 0x00000000000000000000000000 waitRead) := by
  constructor
  case config => exact ring_valid 4 (by decide)
  case ring => constructor <;> decide
  all_goals decide

theorem witness_DecodeInvertsEncode :
    (Instr.rdres 3).isEvent = true ∧ (Instr.rdres 3).wellFormed .reference = true ∧
    (Instr.rxf 0x1010405 8 0xFFFFFFFFFFFFFFFF).wellFormed .reference = true := by decide
theorem witness_EncodeInvertsDecode : ∃ i, decode 0xA0000000000000000000000006 = .ok i := ⟨_, test_decode_rdres⟩
theorem witness_ReservedWordsAreRejected :
    (∃ why, decode 0xE0000000000000000000000000 = .error why) ∧
    (∃ why, decode 0x00000000000000000000000001 = .error why) ∧
    (∃ why, decode 0x30808202800000000000000008 = .error why) :=
  ⟨⟨_, test_decode_reserved14⟩, ⟨_, test_decode_unused_b⟩, ⟨_, test_decode_tail⟩⟩
theorem witness_SecondLevelRowsRoundTrip :
    Config.reference.Valid ∧ (Instr.rxfStatusFault 63 8 0xFFFFFFFFFFFFFFFF).wellFormed .reference = true ∧
    framePayload (.rxfStatusFault 63 8 0xFFFFFFFFFFFFFFFF) = some (8, 0xFFFFFFFFFFFFFFFF) ∧
    (Instr.txcTaggedLongSd 0x040433 5).wellFormed .reference = true ∧
    isSentRow (.txcTaggedLongSd 0x040433 5) = true :=
  ⟨reference_valid, by decide, by decide, by decide, by decide⟩
theorem witness_StatusValueIsLittleEndian : (0 : Len).toNat ≤ 4 ∧ (4 : Len).toNat ≤ 4 := by decide
theorem witness_FieldOfClass : Config.reference.Valid := reference_valid
theorem witness_EventsRunTheirSecondLevelRow : sendRead.state = .waitForSend := by decide
theorem witness_StepRunsDecodedInstruction :
    fetch idle = none ∧
    fetch (present 0x60000000000000000000000000 idle) = some (0x60000000000000000000000000, { idle with input := [[]] }) ∧
    decode 0x60000000000000000000000000 = .ok .enum ∧ decode 0xE0000000000000000000000000 = .error .opcode14 :=
  ⟨rfl, rfl, by decide, by decide⟩
theorem witness_SimultaneousEventsInFixedOrder :
    { idle with input := [[], [0]] }.input = [] :: [[0]] ∧ (present 0 idle).input = [0] :: [] ∧
    ([0] : List EventWord) ≠ [] := by decide
theorem witness_EveryEventHasOneNextState : eventOf .tick ≠ .reserved14 ∧ eventOf .reset ≠ .reserved14 := by decide
theorem witness_InvariantAtReset : (ring 2).Valid := ring_valid 2 (by decide)
theorem witness_StepKeepsInvariant :
    Inv (present 0x00000000000000000000000000 waitRead) ∧
    ∃ t, step (present 0x00000000000000000000000000 waitRead) = .next t := ⟨inv_presented, _, rfl⟩
theorem witness_RingPredicates : RingOk idle ∧ RingOk full ∧ isEmpty full = false :=
  ⟨inv_idle.ring, inv_full.ring, by decide⟩
theorem witness_PushAppendsToTheQueue :
    RingOk full ∧ (push setCmd full).isNone ∧ RingOk idle ∧ ∃ t, push setCmd idle = some t :=
  ⟨inv_full.ring, by decide, inv_idle.ring, _, rfl⟩
theorem witness_RetireDropsTheHead : RingOk waitRead ∧ waitRead.wr ≠ waitRead.rd :=
  ⟨inv_waitRead.ring, by decide⟩
/-- The event retires the head and, through the chain, adds an entry. -/
theorem witness_QueueIsFirstInFirstOut :
    Inv waitRead ∧ Instr.rxfStatusVout 5 2 0 ≠ .reset ∧ ∃ t, exec (.rxfStatusVout 5 2 0) waitRead = .next t :=
  ⟨inv_waitRead, by decide, _, rfl⟩
theorem witness_DispatchLaunchesTheHead :
    (let s := flight 4 .idle 0 setCmd; s.state = .idle ∧ s.wr ≠ s.rd ∧ s.cnt = 0) ∧
    sendRead.state ≠ .idle ∧ idle.wr = idle.rd ∧ (window 1).cnt ≠ 0 := by decide
theorem witness_TickDecrementsTheCountdown : 2 ≤ sendRead.cnt := by decide
theorem witness_TickWithoutCountdownDoesNothing : Inv idle ∧ idle.cnt = 0 := ⟨inv_idle, rfl⟩
theorem witness_ExpiryInIdleClosesTheWindow :
    (window 1).state = .idle ∧ (window 1).cnt = 1 ∧ (window 1).wr = (window 1).rd ∧
    (let s := flight 4 .idle 1 setCmd; s.state = .idle ∧ s.cnt = 1 ∧ s.wr ≠ s.rd) := by decide
theorem witness_SendTimeoutRecovers :
    let s := flight 4 .waitForSend 1 voutRead; s.state = .waitForSend ∧ s.cnt = 1 := by decide
theorem witness_AckTimeoutRecovers :
    let s := flight 4 .waitForAck 1 voutRead; s.state = .waitForAck ∧ s.cnt = 1 := by decide
theorem witness_TxcOfEnumerationOpensTheWindow :
    let s := flight 4 .waitForSend 2 enumReq
    s.state = .waitForSend ∧ 1 ≤ s.cfg.tSettle ∧ (head s).cls = s.cfg.clsEnum := by decide
theorem witness_TxcOfUntaggedRetires :
    let s := flight 4 .waitForSend 2 bcast
    s.state = .waitForSend ∧ (head s).cls ≠ s.cfg.clsEnum ∧ (head s).cls.extractLsb' 10 13 = 0 := by decide
theorem witness_TxcOfTaggedAwaitsAck :
    sendParam.state = .waitForSend ∧ (head sendParam).cls ≠ sendParam.cfg.clsEnum ∧
    (head sendParam).cls.extractLsb' 10 13 ≠ 0 ∧ (head sendParam).cls ∉ sendParam.cfg.updLong ∧
    sendLong.state = .waitForSend ∧ (head sendLong).cls ≠ sendLong.cfg.clsEnum ∧
    (head sendLong).cls.extractLsb' 10 13 ≠ 0 ∧ (head sendLong).cls ∈ sendLong.cfg.updLong := by decide
theorem witness_TxcOutsideWaitForSendIsIgnored :
    Inv idle ∧ idle.state ≠ .waitForSend ∧ Inv waitRead ∧ waitRead.state ≠ .waitForSend ∧ eventOf .txc = .txc ∧
    eventOf (.txcTagged 0x040441 5) = .txc := ⟨inv_idle, by decide, inv_waitRead, by decide, rfl, rfl⟩
theorem witness_ReservedLengthDropsTheFrame :
    Inv waitRead ∧ 8 < (9 : Len).toNat ∧ 8 < (15 : Len).toNat ∧ framePayload (.rxfAck 5 9 0) = some (9, 0) :=
  ⟨inv_waitRead, by decide, by decide, rfl⟩
theorem witness_MalformedStatusFrameIsDropped :
    Inv waitRead ∧ (1 : Len).toNat ≠ waitRead.cfg.expLen[(0 : Fin 8).castSucc] ∧
    (3 : Len).toNat ≠ waitRead.cfg.expLen[(7 : Fin 8).castSucc] ∧
    (3 : Len).toNat ≠ waitRead.cfg.expLen[(8 : Fin 9)] := ⟨inv_waitRead, by decide, by decide, by decide⟩
theorem witness_StatusFrameHasItsEffect :
    waitRead.cfg.Valid ∧ (2 : Len).toNat = waitRead.cfg.expLen[(0 : Fin 8).castSucc] ∧
    (2 : Len).toNat = waitRead.cfg.expLen[(7 : Fin 8).castSucc] := ⟨inv_waitRead.config, by decide, by decide⟩
theorem witness_FwverFrameHasItsEffect :
    waitRead.cfg.Valid ∧ (4 : Len).toNat = waitRead.cfg.expLen[(8 : Fin 9)] := ⟨inv_waitRead.config, by decide⟩
/-- The ring is full before the reply. -/
theorem witness_RetiringReplyFindsRoom :
    Inv fullWait ∧ isFull fullWait = true ∧ (2 : Len).toNat = fullWait.cfg.expLen[(0 : Fin 8).castSucc] ∧
    fullWait.state = .waitForAck ∧ (head fullWait).cls = fullWait.cfg.clsStatus[(0 : Fin 8)] ∧
    (∃ t, exec (statusRow 0 5 2 0) fullWait = .next t) ∧
    ∃ t, exec (.rxf (identOf fullWait.cfg.clsStatus[(0 : Fin 8)] 5) 2 0) fullWait = .next t :=
  ⟨inv_fullWait, by decide, by decide, rfl, by decide, ⟨_, rfl⟩, _, rfl⟩
theorem witness_EnumReplySetsItsBit :
    Inv (window 1) ∧ Inv (window 80) ∧ Inv idle ∧ (0 : Len).toNat ≤ 8 ∧ (8 : Len).toNat ≤ 8 :=
  ⟨inv_window_last, inv_window_first, inv_idle, by decide, by decide⟩
theorem witness_AckRetiresTheHead : Inv waitRead ∧ Inv sendRead ∧ (8 : Len).toNat ≤ 8 :=
  ⟨inv_waitRead, inv_sendRead, by decide⟩
theorem witness_UpdackSetsTheFlag : Inv waitRead ∧ Inv idle ∧ (8 : Len).toNat ≤ 8 :=
  ⟨inv_waitRead, inv_idle, by decide⟩
theorem witness_OtherFrameDeliversItsPayload :
    Inv waitParam ∧ (8 : Len).toNat ≤ 8 ∧ (head waitParam).cls = 0x040440 ∧ (head waitParam).addr = 7 ∧
    rxKind waitParam.cfg 0x040440 = .other := ⟨inv_waitParam, by decide, rfl, rfl, by decide⟩
theorem witness_EnqStoresTheCommand :
    (0 : Len).toNat ≤ 8 ∧ (8 : Len).toNat ≤ 8 ∧ (idle.wr + 1) % idle.cfg.n ≠ idle.rd ∧
    (sendRead.wr + 1) % sendRead.cfg.n ≠ sendRead.rd := by decide
theorem witness_EnqrPresetsItsSlot :
    (8 : Len).toNat ≤ 8 ∧ (3 : SlotIx).toNat < sendRead.cfg.r ∧ (readSlot sendRead 3).st ≠ .pending ∧
    (sendRead.wr + 1) % sendRead.cfg.n ≠ sendRead.rd := by decide
theorem witness_SetaddrInvalidatesAndQueries :
    (1 : DevNo) ≠ 0 ∧ (63 : DevNo) ≠ 0 ∧ (idle.wr + 1) % idle.cfg.n ≠ idle.rd := by decide
theorem witness_EnumClearsTheBitmap : (idle.wr + 1) % idle.cfg.n ≠ idle.rd := by decide
theorem witness_QueueFullIsPrecise :
    Inv full ∧ (full.wr + 1) % full.cfg.n = full.rd ∧ (8 : Len).toNat ≤ 8 ∧ (3 : SlotIx).toNat < full.cfg.r ∧
    (readSlot full 3).st ≠ .pending ∧ (1 : DevNo) ≠ 0 ∧ (eventOf .tick).context = .interrupt ∧
    ∃ t, exec .tick full = .next t :=
  ⟨inv_full, by decide, by decide, by decide, by decide, by decide, rfl, _, rfl⟩
theorem witness_BadArgChangesNothingElse :
    8 < (9 : Len).toNat ∧ ({ ring 4 with r := 3 } : Config).r ≤ (3 : SlotIx).toNat ∧
    (readSlot sendRead 1).st = .pending ∧ 8 < (9 : BitVec 4).toNat := by decide
theorem witness_ReadOperationsReturnTheirState : (3 : SlotIx).toNat < idle.cfg.r := by decide
theorem witness_ComponentsHaveTheirWriters : ∃ t, exec .txc sendRead = .next t := ⟨_, rfl⟩
theorem witness_HostCannotReachTheEngine :
    Inv idle ∧ (eventOf .enum).context = .foreground ∧ ∃ t, exec .enum idle = .next t :=
  ⟨inv_idle, rfl, _, rfl⟩
theorem witness_ErrIsStickyAndObservationOnly :
    (∃ t, exec .tick { idle with err := 1 } = .next t) ∧ eventOf .tick ≠ .clrerr ∧ eventOf .tick ≠ .reset ∧
    ({ idle with err := 1 } : State).err.getLsbD 0 = true ∧ Instr.tick ≠ .rdreg 7 :=
  ⟨⟨_, rfl⟩, by decide, by decide, by decide, by decide⟩
theorem witness_BusOutputsAreLaunchesAndAborts : Inv idle ∧ ∃ t, exec .enum idle = .next t :=
  ⟨inv_idle, _, rfl⟩
/-- A retirement overwrites a PENDING slot; an ENQR writes a FREE one. -/
theorem witness_SlotsAreWriteOnceMailboxes :
    Inv waitRead ∧ Instr.rxfAck 5 0 0 ≠ .reset ∧
    (∃ t, exec (.rxfAck 5 0 0) waitRead = .next t ∧ readSlot t 1 ≠ readSlot waitRead 1) ∧
    (readSlot waitRead 1).st = .pending ∧ Inv idle ∧
    (∃ t, exec (.enqr 0x040440 7 0 0 0) idle = .next t ∧ readSlot t 0 ≠ readSlot idle 0) ∧
    (readSlot idle 0).st ≠ .pending :=
  ⟨inv_waitRead, by decide, ⟨_, rfl, by decide⟩, by decide, inv_idle, ⟨_, rfl, by decide⟩, by decide⟩
theorem witness_SendTimeoutIsExact :
    Inv sendRead ∧ sendRead.state = .waitForSend ∧ 0 < sendRead.cnt ∧ 1 < sendRead.cnt :=
  ⟨inv_sendRead, rfl, by decide, by decide⟩
theorem witness_ReadTimesOutAtExactlyTAck :
    Inv sendParam ∧ sendParam.state = .waitForSend ∧ (head sendParam).cls ≠ sendParam.cfg.clsEnum ∧
    (head sendParam).cls.extractLsb' 10 13 ≠ 0 ∧ (head sendParam).cls ∉ sendParam.cfg.updLong ∧
    9 < sendParam.cfg.tAck ∧ 10 = sendParam.cfg.tAck ∧
    Inv sendLong ∧ (head sendLong).cls ∈ sendLong.cfg.updLong ∧ (head sendLong).cls ≠ sendLong.cfg.clsEnum ∧
    (head sendLong).cls.extractLsb' 10 13 ≠ 0 ∧ 49 < sendLong.cfg.tUpdate :=
  ⟨inv_sendParam, rfl, by decide, by decide, by decide, by decide, by decide, inv_sendLong, by decide, by decide,
    by decide, by decide⟩
theorem witness_SettlingHoldsOffTransmission :
    (window 80).state = .idle ∧ List.count .tick [Instr.tick, .enum, .txc] < (window 80).cnt ∧
    Instr.reset ∉ [Instr.tick, .enum, .txc] ∧ ∃ t, runEvents [.tick, .enum, .txc] (window 80) = .next t :=
  ⟨rfl, by decide, by decide, _, rfl⟩
theorem witness_PresenceBitmapIsExact :
    (window 80).cfg.Valid ∧ (window 80).state = .idle ∧
    List.count .tick [Instr.rxfEnumReply 63 0 0, .tick] < (window 80).cnt ∧
    Instr.reset ∉ [Instr.rxfEnumReply 63 0 0, .tick] ∧ Instr.enum ∉ [Instr.rxfEnumReply 63 0 0, .tick] ∧
    (∃ t, runEvents [.rxfEnumReply 63 0 0, .tick] (window 80) = .next t) ∧ (63 : DevNo) ≠ 0 ∧
    isEnumReplyFrom (window 80).cfg 63 (.rxfEnumReply 63 0 0) = true :=
  ⟨ring_valid 4 (by decide), rfl, by decide, by decide, by decide, ⟨_, rfl⟩, by decide, rfl⟩

/-- An engine with the shortest time-outs, so that a run past all of them is short. -/
def brisk : State :=
  { sendRead with cnt := 1, cfg := { ring 4 with tSend := 1, tAck := 1, tUpdate := 2 } }

theorem inv_brisk : Inv brisk := by
  constructor
  case config =>
    obtain ⟨_, _, _, _, _, _, h⟩ := ring_valid 4 (by decide)
    exact ⟨by decide, by decide, by decide, by decide, by decide, by decide, h⟩
  case ring => constructor <;> decide
  all_goals decide

theorem witness_EveryLaunchedEntryIsRetired :
    Inv brisk ∧ brisk.state ≠ .idle ∧ Instr.reset ∉ [Instr.txc, .tick, .tick, .tick] ∧
    brisk.cfg.tSend + max brisk.cfg.tAck brisk.cfg.tUpdate ≤ List.count .tick [Instr.txc, .tick, .tick, .tick] ∧
    ∃ t, runEvents [.txc, .tick, .tick, .tick] brisk = .next t :=
  ⟨inv_brisk, by decide, by decide, by decide, _, rfl⟩

/-! ## The duties can be met, and exclude what they should (R280) -/

/-- Two commands queued, the first being sent in its last tick: its time-out launches the second. -/
def lastTick : State :=
  { flight 4 .waitForSend 1 setCmd with
    wr := 2
    q := [setCmd, bcast, QEntry.blank, QEntry.blank]
    busOut := [.txStart (frameOf setCmd)] }

/-- The TXC of the outstanding frame is allowed before the time-out; after it the next frame is outstanding, its TXC
is allowed, and the aborted frame's is not (R290). -/
theorem test_stale_txc :
    TxcWhileSending lastTick .txc 1 ∧ ∃ t, exec .tick lastTick = .next t ∧ t.txslot.v = true ∧
      TxcWhileSending t .txc 2 ∧ ¬ TxcWhileSending t .txc 1 :=
  ⟨fun _ => ⟨rfl, rfl⟩, _, rfl, rfl, fun _ => ⟨rfl, rfl⟩, not_txcWhileSending_of_aborted (s := lastTick) rfl rfl rfl⟩

/-- An acknowledgement of device 5 answers `SET` to device 5; one of device 9, or one that meets a read, is foreign
(R293). -/
theorem test_foreign_ack :
    AckIsForHead (flight 4 .waitForAck 10 setCmd) (.rxfAck 5 0 0) ∧
    ¬ AckIsForHead (flight 4 .waitForAck 10 setCmd) (.rxfAck 9 0 0) ∧
    ¬ AckIsForHead waitParam (.rxfAck 7 0 0) := by
  refine ⟨?_, fun h => ?_, fun h => ?_⟩
  · intro kind a len h _ _ _
    cases h
    decide
  · exact absurd (h _ _ _ rfl (.inl rfl) (by decide) rfl).1 (by decide)
  · exact absurd (h _ _ _ rfl (.inl rfl) (by decide) rfl).2.1 (by decide)

/-- The reference `EXPLEN` agrees with a VOUT frame of two bytes and not with one of a single byte (R294, V-F). -/
theorem test_explen : ExpLenAgrees .reference (.rxfStatusVout 5 2 0x0C80) ∧
    ¬ ExpLenAgrees .reference (.rxfStatusVout 5 1 0x80) := by
  refine ⟨?_, fun h => ?_⟩
  · intro kind a len h
    cases h
    exact ⟨fun k hk => by cases hk; decide, fun hk => by cases hk⟩
  · exact absurd ((h _ _ _ rfl).1 0 rfl) (by decide)

/-- P1: the VOUT reply answers the poll in flight; the same frame in Idle is unsolicited (R285, V-K). -/
theorem test_unsolicited : NoUnsolicitedStatus waitRead (.rxfStatusVout 5 2 0x0C80) ∧
    ¬ NoUnsolicitedStatus idle (.rxfStatusVout 1 2 0x1234) := by
  refine ⟨?_, fun h => ?_⟩
  · intro k a len h _
    cases h
    decide
  · exact absurd (h 0 1 2 rfl (by decide)).1 (by decide)

end Sys2Proof.Tests
end

/-! The ring as a queue (R39, R76, R77): where `count()` places `WR`, and what `push` does to the live entries. -/

namespace Sys2Proof.Machine

variable {s t : State} {e : QEntry}

/-! ## `count()` measures the way from `RD` to `WR` -/

theorem count_lt (hs : RingOk s) : count s < s.cfg.n := by
  obtain ⟨_, hr, hw, _⟩ := hs
  rw [count_eq s hr hw]
  split <;> omega

/-- `WR` stands `count()` elements behind `RD` (R39). -/
theorem rd_add_count_mod (hs : RingOk s) : (s.rd + count s) % s.cfg.n = s.wr := by
  obtain ⟨_, hr, hw, _⟩ := hs
  rw [count_eq s hr hw]
  split
  case isTrue h => rw [Nat.add_sub_of_le h, Nat.mod_eq_of_lt hw]
  case isFalse =>
    rw [Nat.add_sub_of_le (by omega), Nat.add_mod_right, Nat.mod_eq_of_lt hw]

/-- Inside one turn of the ring, `count()` is the only way from `RD` to `WR`. -/
theorem rd_add_mod_eq_wr_iff {k : Nat} (hs : RingOk s) (hk : k < s.cfg.n) :
    (s.rd + k) % s.cfg.n = s.wr ↔ k = count s := by
  constructor
  · intro h
    have hmod : s.rd + k ≡ s.rd + count s [MOD s.cfg.n] := h.trans (rd_add_count_mod hs).symm
    exact (Nat.ModEq.add_left_cancel' s.rd hmod).eq_of_lt_of_lt hk (count_lt hs)
  · rintro rfl
    exact rd_add_count_mod hs

/-- `WR` names none of the valid elements (R45). -/
theorem live_index_ne_wr {j : Nat} (hs : RingOk s) (hj : j < count s) : (s.rd + j) % s.cfg.n ≠ s.wr := fun h =>
  hj.ne ((rd_add_mod_eq_wr_iff hs (hj.trans (count_lt hs))).1 h)

/-- The element after the last of `count() + 1` is the one behind `WR`. -/
theorem rd_add_count_succ_mod (hs : RingOk s) : (s.rd + (count s + 1)) % s.cfg.n = (s.wr + 1) % s.cfg.n := by
  rw [← Nat.add_assoc, ← Nat.mod_add_mod, rd_add_count_mod hs]

/-- A ring with room has an element to spare: `N` entries would bring `WR` round to `RD` (R76). -/
theorem count_succ_lt_of_not_full (hs : RingOk s) (hf : isFull s = false) : count s + 1 < s.cfg.n := by
  refine lt_of_le_of_ne (count_lt hs) fun hn => (isFull_eq_false s).1 hf ?_
  rw [← rd_add_count_succ_mod hs, hn, Nat.add_mod_right, Nat.mod_eq_of_lt hs.rd_lt]

/-! ## What `push` does to the ring -/

theorem ringOk_push (hs : RingOk s) (hp : push e s = some t) : RingOk t := by
  have hq := push_ring_wf hs.ring_wf hp
  obtain ⟨_, rfl⟩ := push_eq_some hp
  exact ⟨hs.size, hs.rd_lt, Nat.mod_lt _ (Nat.zero_lt_of_lt hs.rd_lt), hq⟩

theorem readEntry_push_wr (hs : RingOk s) (hp : push e s = some t) : readEntry t s.wr = e := by
  have hlen : s.wr < s.q.length := hs.wr_lt.trans_eq hs.ring_wf.symm
  obtain ⟨_, rfl⟩ := push_eq_some hp
  exact readEntry_writeEntry_same hlen

theorem readEntry_push_ne {i : Nat} (hp : push e s = some t) (hi : i ≠ s.wr) : readEntry t i = readEntry s i := by
  obtain ⟨_, rfl⟩ := push_eq_some hp
  exact readEntry_writeEntry_ne hi.symm

theorem count_push (hs : RingOk s) (hp : push e s = some t) : count t = count s + 1 := by
  have ht := ringOk_push hs hp
  obtain ⟨hf, rfl⟩ := push_eq_some hp
  have hlt : count s + 1 < s.cfg.n := count_succ_lt_of_not_full hs hf
  exact ((rd_add_mod_eq_wr_iff ht hlt).1 (rd_add_count_succ_mod hs)).symm

/-- The old entries are read as before, because `WR` names none of them; the one at `WR` comes last (R77). -/
theorem liveEntries_push (hs : RingOk s) (hp : push e s = some t) : liveEntries t = liveEntries s ++ [e] := by
  have hidx : t.rd = s.rd ∧ t.cfg = s.cfg := by
    obtain ⟨_, rfl⟩ := push_eq_some hp
    exact ⟨rfl, rfl⟩
  have hold : ∀ j ∈ List.range (count s),
      readEntry t ((s.rd + j) % s.cfg.n) = readEntry s ((s.rd + j) % s.cfg.n) := fun j hj =>
    readEntry_push_ne hp (live_index_ne_wr hs (List.mem_range.1 hj))
  unfold liveEntries
  rw [count_push hs hp, hidx.1, hidx.2, List.range_succ, List.map_append, List.map_congr_left hold,
    List.map_singleton, rd_add_count_mod hs, readEntry_push_wr hs hp]

/-- Settles O18: `count()` places `WR` outside the valid range, so the push keeps every valid entry (R77). -/
theorem pushAppendsToTheQueue : Obligations.PushAppendsToTheQueue := by
  intro s e hs
  refine ⟨(push_eq_none_iff s e).trans (isFull_eq_true s), fun t hp => ⟨?_, ?_, ?_, ?_⟩⟩
  · exact (push_eq_some hp).2
  · exact readEntry_push_wr hs hp
  · exact liveEntries_push hs hp
  · exact fun j hj => live_index_ne_wr hs hj

end Sys2Proof.Machine

/-! Identifiers by their fields (R101), and the event words the decoder rejects (R106, R107, R124). -/

namespace Sys2Proof.Machine

/-! ## The identifier is its class and its device number (R101) -/

@[simp] theorem classOf_identOf (cls : Cls) (a : DevNo) : classOf (identOf cls a) = cls :=
  BitVec.extractLsb'_append_eq_left

@[simp] theorem devNoOf_identOf (cls : Cls) (a : DevNo) : devNoOf (identOf cls a) = a :=
  BitVec.extractLsb'_append_eq_right

@[simp] theorem identOf_classOf_devNoOf (id : Ident) : identOf (classOf id) (devNoOf id) = id :=
  BitVec.extractLsb'_append_extractLsb'

theorem identOf_toNat (cls : Cls) (a : DevNo) : (identOf cls a).toNat = cls.toNat * 64 + a.toNat := by
  rw [identOf, BitVec.toNat_append, ← Nat.shiftLeft_add_eq_or_of_lt a.isLt, Nat.shiftLeft_eq]

/-- Settles O6: assembly is concatenation, so the two slices are the two fields again. -/
theorem identifierAssembly : Obligations.IdentifierAssembly :=
  ⟨fun e => ⟨classOf_identOf e.cls e.addr, devNoOf_identOf e.cls e.addr, identOf_toNat e.cls e.addr⟩,
    fun id => ⟨rfl, rfl, identOf_classOf_devNoOf id⟩⟩

end Sys2Proof.Machine

namespace Sys2Proof

open Machine

/-! ## A word under a mask, field by field (R106) -/

/-- What a mask, itself taken apart into fields, keeps of each field. -/
def EventFields.masked (f m : EventFields) : EventFields :=
  ⟨f.op &&& m.op, f.id &&& m.id, f.len &&& m.len, f.data &&& m.data, f.rslot &&& m.rslot, f.b &&& m.b⟩

/-- The fields that the row of this opcode does not use are zero (R124): the row's mask keeps nothing but the opcode. -/
def EventFields.unusedZero (f : EventFields) : Bool :=
  f.masked (.ofWord (tableMask f.op.toNat)) == ⟨f.op, 0, 0, 0, 0, 0⟩

/-- RXF, ENQ and ENQR, the events with a payload (R107). -/
def EventFields.carriesPayload (f : EventFields) : Bool := f.op == 2 || f.op == 3 || f.op == 4

theorem EventFields.ofWord_injective : Function.Injective EventFields.ofWord :=
  Function.LeftInverse.injective EventFields.toWord_ofWord

theorem EventFields.ofWord_and (w m : EventWord) :
    EventFields.ofWord (w &&& m) = (EventFields.ofWord w).masked (EventFields.ofWord m) := by
  simp only [EventFields.ofWord, EventFields.masked, BitVec.extractLsb'_and]

/-- The match column of the opcode table: the opcode and nothing else. -/
theorem EventFields.toWord_opcode :
    ∀ op : BitVec 4, (EventFields.mk op 0 0 0 0 0).toWord = op.setWidth 104 <<< 100 := by
  decide

/-- The table's mask and match columns say that the unused fields are zero. -/
theorem word_masked_eq_iff (w : EventWord) :
    w &&& tableMask (w.extractLsb' 100 4).toNat = (w.extractLsb' 100 4).setWidth 104 <<< 100 ↔
      (EventFields.ofWord w).unusedZero = true := by
  rw [← EventFields.toWord_opcode, ← EventFields.ofWord_injective.eq_iff, EventFields.ofWord_and,
    EventFields.ofWord_toWord, EventFields.unusedZero, beq_iff_eq]
  rfl

/-- The mask column covers the whole opcode, so only the other five fields are left to compare. -/
theorem EventFields.unusedZero_iff (f : EventFields) : f.unusedZero = true ↔
    f.id &&& (tableMask f.op.toNat).extractLsb' 71 29 = 0 ∧ f.len &&& (tableMask f.op.toNat).extractLsb' 67 4 = 0 ∧
    f.data &&& (tableMask f.op.toNat).extractLsb' 3 64 = 0 ∧
    f.rslot &&& (tableMask f.op.toNat).extractLsb' 1 2 = 0 ∧ f.b &&& (tableMask f.op.toNat).extractLsb' 0 1 = 0 := by
  have hop : ∀ op : BitVec 4, op &&& (tableMask op.toNat).extractLsb' 100 4 = op := by decide
  simp only [EventFields.unusedZero, beq_iff_eq, EventFields.masked, EventFields.ofWord, EventFields.mk.injEq, hop,
    true_and]

/-- A field masked whole. -/
theorem and_eq_self_of_eq_allOnes {n : Nat} {x m : BitVec n} (h : m = BitVec.allOnes n) : x &&& m = x := by
  rw [h, BitVec.and_allOnes]

/-- A field masked above its lowest `k` bits. -/
theorem and_allOnes_append_zero_eq_zero_iff {n k : Nat} (x : BitVec (n + k)) :
    x &&& (BitVec.allOnes n ++ 0#k) = 0 ↔ x.extractLsb' k n = 0 := by
  have hsplit : x = x.extractLsb' k n ++ x.extractLsb' 0 k := BitVec.extractLsb'_append_extractLsb'.symm
  have hkeep : x &&& (BitVec.allOnes n ++ 0#k) = x.extractLsb' k n ++ 0#k := by
    conv_lhs => rw [hsplit, BitVec.and_append, BitVec.and_allOnes, BitVec.and_zero]
  rw [hkeep]
  constructor
  · intro h
    simpa [BitVec.extractLsb'_append_eq_left] using congrArg (BitVec.extractLsb' k n) h
  · intro h
    simp [h]

/-- SETADDR uses the device number of the identifier and not its class (R107). -/
theorem classMask_eq_zero_iff (id : Ident) : id &&& 0x1FFFFFC0#29 = 0#29 ↔ classOf id = 0#23 :=
  and_allOnes_append_zero_eq_zero_iff (n := 23) (k := 6) id

/-- CLRERR uses the lowest six payload bits (R107). -/
theorem clrerrMask_eq_zero_iff (data : Payload) :
    data &&& 0xFFFFFFFFFFFFFFC0#64 = 0#64 ↔ data.extractLsb' 6 58 = 0#58 :=
  and_allOnes_append_zero_eq_zero_iff (n := 58) (k := 6) data

/-! ## What the decoder checks (R124) -/

theorem opcode_cases : ∀ op : BitVec 4, op = 0 ∨ op = 1 ∨ op = 2 ∨ op = 3 ∨ op = 4 ∨ op = 5 ∨ op = 6 ∨ op = 7 ∨
    op = 8 ∨ op = 9 ∨ op = 10 ∨ op = 11 ∨ op = 12 ∨ op = 13 ∨ op = 14 ∨ op = 15 := by decide

theorem requireUnused_congr {z z' : Bool} (x : Except Reject Instr) (h : z = true ↔ z' = true) :
    requireUnused z x = requireUnused z' x := by
  rw [Bool.eq_iff_iff.2 h]

/-- Every row of R107 but the reserved one checks its unused fields, which are those of the table's mask, and then its
payload, where it carries one. -/
theorem decodeFields_eq (f : EventFields) (hop : f.op ≠ 14) : ∃ i, decodeFields f =
    requireUnused f.unusedZero (if f.carriesPayload then requirePayload f i else .ok i) := by
  obtain ⟨op, id, len, data, rslot, b⟩ := f
  rcases opcode_cases op with
    rfl | rfl | rfl | rfl | rfl | rfl | rfl | rfl | rfl | rfl | rfl | rfl | rfl | rfl | rfl | rfl
  map_tacs [
    refine ⟨.tick, ?_⟩;
    refine ⟨.txc, ?_⟩;
    refine ⟨.rxf id len data, ?_⟩;
    refine ⟨.enq (classOf id) (devNoOf id) len data, ?_⟩;
    refine ⟨.enqr (classOf id) (devNoOf id) len data rslot, ?_⟩;
    refine ⟨.setaddr (devNoOf id), ?_⟩;
    refine ⟨.enum, ?_⟩;
    refine ⟨.sweep (b == 1), ?_⟩;
    refine ⟨.rdstat len, ?_⟩;
    refine ⟨.rdpres, ?_⟩;
    refine ⟨.rdres rslot, ?_⟩;
    refine ⟨.takeupd, ?_⟩;
    refine ⟨.rdreg len, ?_⟩;
    refine ⟨.clrerr (data.extractLsb' 0 6), ?_⟩;
    exact absurd rfl hop;
    refine ⟨.reset, ?_⟩]
  all_goals
    refine requireUnused_congr _ ?_
    simp (disch := decide) [EventFields.unusedZero_iff, tableMask, and_eq_self_of_eq_allOnes, classMask_eq_zero_iff,
      clrerrMask_eq_zero_iff, and_assoc]

/-! ## What the decoder rejects (R124) -/

theorem requireUnused_rejects_iff (z : Bool) (x : Except Reject Instr) :
    (∃ why, requireUnused z x = .error why) ↔ z = false ∨ ∃ why, x = .error why := by
  cases z <;> simp [requireUnused]

theorem requirePayload_rejects_iff (f : EventFields) (i : Instr) :
    (∃ why, requirePayload f i = .error why) ↔ payloadOk f.len f.data = false := by
  cases h : payloadOk f.len f.data <;> simp [requirePayload, h]

theorem decodeFields_rejects_iff (f : EventFields) : (∃ why, decodeFields f = .error why) ↔
    f.op = 14 ∨ f.unusedZero = false ∨ f.carriesPayload = true ∧ payloadOk f.len f.data = false := by
  by_cases hop : f.op = 14
  case pos => simp [decodeFields, hop]
  obtain ⟨i, hi⟩ := decodeFields_eq f hop
  rw [hi, requireUnused_rejects_iff]
  by_cases hpay : f.carriesPayload = true
  · simp only [hop, hpay, ↓reduceIte, requirePayload_rejects_iff, false_or, true_and]
  · simp only [hop, hpay, ↓reduceIte, reduceCtorEq, exists_false, false_or, false_and, Bool.false_eq_true]

theorem EventFields.carriesPayload_iff (f : EventFields) :
    f.carriesPayload = true ↔ f.op = 2 ∨ f.op = 3 ∨ f.op = 4 := by
  simp [EventFields.carriesPayload, or_assoc]

theorem payloadOk_eq_false_iff (len : Len) (data : Payload) : payloadOk len data = false ↔
    len.toNat ≤ 8 ∧ ∃ i, len.toNat ≤ i ∧ i < 8 ∧ byteOf data i ≠ 0 := by
  simp [payloadOk, lenReserved, payloadTailZero, and_left_comm]

/-- Payload byte `i` stands in the word's bits from `3 + 8 * i` on (R106). -/
theorem byteOf_data_ofWord (w : EventWord) {i : Nat} (hi : i < 8) :
    byteOf (EventFields.ofWord w).data i = w.extractLsb' (3 + 8 * i) 8 := by
  apply BitVec.eq_of_getLsbD_eq
  intro j hj
  simp [byteOf, EventFields.ofWord, hj, Nat.add_assoc, show 8 * i + j < 64 by omega]

/-- A word carries a non-zero byte behind its payload just when its fields fail the payload's check. -/
theorem payloadOk_ofWord_eq_false_iff (w : EventWord) :
    payloadOk (EventFields.ofWord w).len (EventFields.ofWord w).data = false ↔
      (w.extractLsb' 67 4).toNat ≤ 8 ∧
        ∃ i, (w.extractLsb' 67 4).toNat ≤ i ∧ i < 8 ∧ w.extractLsb' (3 + 8 * i) 8 ≠ 0 := by
  rw [payloadOk_eq_false_iff]
  refine and_congr_right fun _ => exists_congr fun i => and_congr_right fun _ => and_congr_right fun hi => ?_
  rw [byteOf_data_ofWord w hi]

theorem step_present_of_rejected {w : EventWord} {why : Reject} (s : State) (h : decode w = .error why) :
    step (present w s) = .refused (.reservedWord why) := by
  simp only [step, fetch_present, h]

/-- Settles O3: field by field, the decoder's checks are the table's mask and the tail of the payload. -/
theorem reservedWordsAreRejected : Obligations.ReservedWordsAreRejected := by
  intro w
  refine ⟨?_, fun s why h => step_present_of_rejected s h⟩
  have hunused := (word_masked_eq_iff w).not.trans (Bool.not_eq_true _).to_iff
  have hpay := (EventFields.carriesPayload_iff (.ofWord w)).and (payloadOk_ofWord_eq_false_iff w)
  exact (decodeFields_rejects_iff (.ofWord w)).trans (or_congr_right (or_congr hunused.symm hpay))

end Sys2Proof

namespace Sys2Proof.Machine

/-! ## The update-ack flag and the sticky error bits (R148, R150) -/

/-- The meaning of TAKEUPD (R148): the flag is read before it is cleared. -/
theorem exec_takeupd (s : State) : exec .takeupd s = .next (answer (.bit s.updack) { s with updack := false }) :=
  rfl

/-- Settles O48: `answer` only appends the result. -/
theorem takeupdConsumesTheFlag : Obligations.TakeupdConsumesTheFlag := by
  intro s
  rw [exec_takeupd, answer]

/-- The meaning of CLRERR (R150). -/
theorem exec_clrerr (m : BitVec 6) (s : State) :
    exec (.clrerr m) s = .next (answer .ok { s with err := s.err &&& ~~~m }) := rfl

/-- `ERR and not m`, bit by bit. -/
theorem getLsbD_and_not {n b : Nat} (x m : BitVec n) (hb : b < n) :
    (x &&& ~~~m).getLsbD b = (x.getLsbD b && !m.getLsbD b) := by
  rw [BitVec.getLsbD_and, BitVec.getLsbD_not, decide_eq_true hb, Bool.true_and]

/-- Settles O50: the new `ERR` is `ERR and not m`. -/
theorem clrerrClearsTheMaskedBits : Obligations.ClrerrClearsTheMaskedBits := by
  intro s m
  refine ⟨s.err &&& ~~~m, ?_, fun b hb => getLsbD_and_not s.err m hb⟩
  rw [exec_clrerr, answer]

end Sys2Proof.Machine

/-! The status field of a class (R113, R174), and the TICK with its expiries (R175 to R179, R244). -/

namespace Sys2Proof.Machine

/-! ## The status field of a class (R174) -/

/-- The first half of R113: different status fields have different classes. -/
theorem clsStatus_inj {c : Config} {j k : Fin 8} (hc : c.Valid) : c.clsStatus[j] = c.clsStatus[k] ↔ j = k := by
  obtain ⟨_, _, _, _, _, _, _, _, _, hnodup, _, _⟩ := hc
  have hstatus : c.clsStatus.toList.Nodup := (List.nodup_append.1 hnodup).1
  simpa [Fin.ext_iff] using hstatus.getElem_inj_iff (i := j.val) (hi := by simp) (j := k.val) (hj := by simp)

/-- The firmware version is not a status class (R113). -/
theorem clsStatus_ne_clsFwver {c : Config} (hc : c.Valid) (k : Fin 8) : c.clsStatus[k] ≠ c.clsFwver := by
  obtain ⟨_, _, _, _, _, _, _, _, _, hnodup, _, _⟩ := hc
  exact (List.nodup_append.1 hnodup).2.2 _ (by simp) _ (by simp)

theorem eq_clsStatus_of_statusIndex {c : Config} {cls : Cls} {k : Fin 8} (h : statusIndex c cls = some k) :
    cls = c.clsStatus[k] := by
  simpa using List.find?_some h

theorem statusIndex_eq_none_iff (c : Config) (cls : Cls) :
    statusIndex c cls = none ↔ ∀ k : Fin 8, cls ≠ c.clsStatus[k] := by
  have hall : ∀ k : Fin 8, k ∈ [0, 1, 2, 3, 4, 5, 6, 7] := by decide
  simp only [statusIndex, List.find?_eq_none, hall, beq_iff_eq, forall_true_left, ne_eq]

/-- The search finds the field itself, not an earlier one with the same class, because R113 allows no such one. -/
theorem statusIndex_eq_some_iff {c : Config} {cls : Cls} {k : Fin 8} (hc : c.Valid) :
    statusIndex c cls = some k ↔ cls = c.clsStatus[k] := by
  refine ⟨eq_clsStatus_of_statusIndex, fun hk => ?_⟩
  cases hj : statusIndex c cls with
  | none => exact absurd hk ((statusIndex_eq_none_iff c cls).1 hj k)
  | some j =>
    have hjk : c.clsStatus[j] = c.clsStatus[k] := (eq_clsStatus_of_statusIndex hj).symm.trans hk
    rw [(clsStatus_inj hc).1 hjk]

/-! What `field_of` answers (R174): `CLS_FWVER` is looked at only after the status classes. -/

theorem fieldOf_eq_castSucc_iff (c : Config) (cls : Cls) (k : Fin 8) :
    fieldOf c cls = some k.castSucc ↔ statusIndex c cls = some k := by
  have hlast : (8 : Fin 9) ≠ k.castSucc := k.castSucc_ne_last.symm
  unfold fieldOf
  cases statusIndex c cls with
  | some j => simp
  | none => by_cases hfw : cls = c.clsFwver <;> simp [hfw, hlast]

theorem fieldOf_eq_eight_iff (c : Config) (cls : Cls) :
    fieldOf c cls = some 8 ↔ statusIndex c cls = none ∧ cls = c.clsFwver := by
  unfold fieldOf
  cases statusIndex c cls with
  | some j => simpa using j.castSucc_ne_last
  | none => simp

theorem fieldOf_eq_none_iff (c : Config) (cls : Cls) :
    fieldOf c cls = none ↔ statusIndex c cls = none ∧ cls ≠ c.clsFwver := by
  unfold fieldOf
  cases statusIndex c cls <;> simp

/-- Settles O8: by R113 the first status field that matches is the only one, and `CLS_FWVER` matches none. -/
theorem fieldOfClass : Obligations.FieldOfClass := by
  intro c cls hc
  refine ⟨fun k => ?_, ?_, ?_⟩
  · rw [fieldOf_eq_castSucc_iff, statusIndex_eq_some_iff hc]
  · rw [fieldOf_eq_eight_iff, statusIndex_eq_none_iff, and_iff_right_iff_imp]
    rintro rfl k
    exact (clsStatus_ne_clsFwver hc k).symm
  · rw [fieldOf_eq_none_iff, statusIndex_eq_none_iff]

/-! ## The recovery sequence as one update (R172, R173, R244) -/

section

variable (s : State)

theorem retire_eq_slotsAfter (ok : Bool) (len : Len) (data : Payload) :
    retire ok len data s =
      { s with res := slotsAfter (head s) (slotOf ok len data) s.res, rd := (s.rd + 1) % s.cfg.n } :=
  retire_eq s ok len data

theorem invalidateHeadField_eq :
    invalidateHeadField s = { s with field := fieldsAfter s.cfg (head s).cls s.field } := by
  rcases invalidateHeadField_cases s with ⟨k, hk, h⟩ | ⟨hnone, h⟩
  · simp only [h, invalidateField, fieldsAfter, hk]
  · simp only [h, fieldsAfter, hnone]

/-- Both writes of `fail_head` name the entry that was the head before it (R173). -/
theorem failHead_eq :
    failHead s = { s with
      field := fieldsAfter s.cfg (head s).cls s.field
      res := slotsAfter (head s) ⟨.timeout, 0, 0⟩ s.res
      rd := (s.rd + 1) % s.cfg.n } := by
  rw [failHead, invalidateHeadField_eq, retire_eq_slotsAfter]
  rfl

theorem recover_eq (e : ErrorOutcome) :
    recover e s = { s with
      err := s.err ||| e.mask
      field := fieldsAfter s.cfg (head s).cls s.field
      res := slotsAfter (head s) ⟨.timeout, 0, 0⟩ s.res
      rd := (s.rd + 1) % s.cfg.n
      state := .idle } := by
  rw [recover, failHead_eq]
  rfl

/-! ## TICK (R175, R176) -/

variable {s}

theorem exec_tick (s : State) : exec .tick s = .next (dispatch (countDown s)) := rfl

theorem countDown_of_cnt_eq_zero (h : s.cnt = 0) : countDown s = s := if_pos h

/-! At the passage of `CNT` from 1 to 0 the state decides what expires (R176). -/

theorem countDown_of_send_expiry (hs : s.state = .waitForSend) (h : s.cnt = 1) :
    countDown s = sendTimeout { s with cnt := 0 } := by
  simp only [countDown, h, expire, hs, one_ne_zero, ↓reduceIte]

theorem countDown_of_ack_expiry (hs : s.state = .waitForAck) (h : s.cnt = 1) :
    countDown s = ackTimeout { s with cnt := 0 } := by
  simp only [countDown, h, expire, hs, one_ne_zero, ↓reduceIte]

end

/-- Settles O23: no countdown runs, and by I5 the final `dispatch()` finds no idle work. -/
theorem tickWithoutCountdownDoesNothing : Obligations.TickWithoutCountdownDoesNothing := by
  intro s hs hcnt
  rw [exec_tick, countDown_of_cnt_eq_zero hcnt, dispatch_of_not hs.no_idle_work]

/-- Settles O25: the abort, then the recovery sequence over the entry that is the head throughout. -/
theorem sendTimeoutRecovers : Obligations.SendTimeoutRecovers := by
  intro s hstate hcnt
  rw [exec_tick, countDown_of_send_expiry hstate hcnt, sendTimeout, recover_eq]
  rfl

/-- Settles O26: the recovery sequence alone, so the value `CNT` was loaded with leaves no trace. -/
theorem ackTimeoutRecovers : Obligations.AckTimeoutRecovers := by
  intro s hstate hcnt
  rw [exec_tick, countDown_of_ack_expiry hstate hcnt, ackTimeout, recover_eq]
  rfl

end Sys2Proof.Machine

/-! The received frame: its class decides its row (R110, R113), and what the rows without a chained poll do (R200,
R202, R207, R208, R210). -/

namespace Sys2Proof.Machine

/-! ## The kind of a received class (R110, R113) -/

section

variable {c : Config} {cls : Cls}

theorem rxKind_clsStatus (hc : c.Valid) (k : Fin 8) : rxKind c c.clsStatus[k] = .status k := by
  rw [rxKind, (statusIndex_eq_some_iff hc).2 rfl]

/-- The second half of R113: no class of the later lines of R110 is a status class. -/
theorem statusIndex_eq_none_of_mem (hc : c.Valid)
    (h : cls ∈ [c.clsFwver, c.clsAck, c.clsUpdack, c.clsEnumReply]) : statusIndex c cls = none := by
  obtain ⟨_, _, _, _, _, _, _, _, _, hnodup, _, _⟩ := hc
  have hdisjoint := (List.nodup_append.1 hnodup).2.2
  exact (statusIndex_eq_none_iff c cls).2 fun k => (hdisjoint _ (by simp) _ h).symm

/-- The rest of R113: the classes of the later lines of R110 differ from each other. -/
theorem singleClasses_nodup (hc : c.Valid) : [c.clsFwver, c.clsAck, c.clsUpdack, c.clsEnumReply].Nodup := by
  obtain ⟨_, _, _, _, _, _, _, _, _, hnodup, _, _⟩ := hc
  exact (List.nodup_append.1 hnodup).2.1

theorem rxKind_clsFwver (hc : c.Valid) : rxKind c c.clsFwver = .fwver := by
  simp only [rxKind, statusIndex_eq_none_of_mem hc (List.mem_cons_self ..), ↓reduceIte]

theorem rxKind_clsEnumReply (hc : c.Valid) : rxKind c c.clsEnumReply = .enumReply := by
  have hindex : statusIndex c c.clsEnumReply = none := statusIndex_eq_none_of_mem hc (by simp)
  have hfwver : c.clsEnumReply ≠ c.clsFwver := by
    have hnodup := singleClasses_nodup hc
    grind
  simp only [rxKind, hindex, hfwver, ↓reduceIte]

theorem rxKind_clsAck (hc : c.Valid) : rxKind c c.clsAck = .ack := by
  have hindex : statusIndex c c.clsAck = none := statusIndex_eq_none_of_mem hc (by simp)
  have hne : c.clsAck ≠ c.clsFwver ∧ c.clsAck ≠ c.clsEnumReply := by
    have hnodup := singleClasses_nodup hc
    grind
  simp only [rxKind, hindex, hne, ↓reduceIte]

end

/-! ## RXF runs the row of its class (R110, R200) -/

/-- The second-level row of a received frame of a given kind. -/
def receivedRow (kind : RxKind) (cls : Cls) (a : DevNo) (len : Len) (data : Payload) : Instr :=
  match kind with
  | .status k => statusRow k a len data
  | .fwver => .rxfFwver a len data
  | .enumReply => .rxfEnumReply a len data
  | .ack => .rxfAck a len data
  | .updack => .rxfUpdack a len data
  | .other => .rxfOther cls a len data

section

variable {s : State} {kind : RxKind} {cls : Cls} {a : DevNo} {len : Len} {data : Payload} {action : State → State}

/-- What a row does, the RXF of its identifier does too. -/
theorem exec_rxf_identOf (h : rxKind s.cfg cls = kind) :
    exec (.rxf (identOf cls a) len data) s = exec (receivedRow kind cls a len data) s := by
  change execRxf (identOf cls a) len data s = _
  rw [execRxf, classOf_identOf, devNoOf_identOf, h]
  cases kind with
  | status k => fin_cases k <;> rfl
  | fwver => rfl
  | enumReply => rfl
  | ack => rfl
  | updack => rfl
  | other => rfl

/-! The meaning of each row, which `receive` frames. -/

theorem exec_statusRow (k : Fin 8) (a : DevNo) (len : Len) (data : Payload) (s : State) :
    exec (statusRow k a len data) s = .next (receive len (rxStatus k a len data) s) := by
  fin_cases k <;> rfl

theorem exec_rxfFwver (a : DevNo) (len : Len) (data : Payload) (s : State) :
    exec (.rxfFwver a len data) s = .next (receive len (rxFwver a len data) s) := rfl

theorem exec_rxfEnumReply (a : DevNo) (len : Len) (data : Payload) (s : State) :
    exec (.rxfEnumReply a len data) s = .next (receive len (rxEnum a) s) := rfl

theorem exec_rxfAck (a : DevNo) (len : Len) (data : Payload) (s : State) :
    exec (.rxfAck a len data) s = .next (receive len rxAck s) := rfl

theorem exec_rxfOther (cls : Cls) (a : DevNo) (len : Len) (data : Payload) (s : State) :
    exec (.rxfOther cls a len data) s = .next (receive len (rxOther cls a len data) s) := rfl

/-! ## The frame common to the rows (R200) -/

theorem receive_of_le (h : len.toNat ≤ 8) : receive len action s = dispatch (action s) := by
  rw [receive, lenReserved, decide_eq_false (Nat.not_lt.2 h), if_neg Bool.false_ne_true]

/-- An error outcome launches nothing: `dispatch()` finds the state I5 speaks of. -/
theorem dispatch_raise (hs : Inv s) (e : ErrorOutcome) : dispatch (raise e s) = raise e s :=
  dispatch_of_not hs.no_idle_work

/-- R121 and R202 have one outcome, so the order of the two length tests does not show. -/
theorem receive_of_malformed (hs : Inv s) (h : action s = raise .malformedResponse s) :
    receive len action s = { s with err := s.err ||| 8 } := by
  rw [receive, h, ite_self, dispatch_raise hs]
  rfl

/-! ## The actions of the rows -/

theorem rxStatus_of_length_ne {k : Fin 8} (h : len.toNat ≠ s.cfg.expLen[k.castSucc]) :
    rxStatus k a len data s = raise .malformedResponse s := if_neg h

theorem rxFwver_of_length_ne (h : len.toNat ≠ s.cfg.expLen[(8 : Fin 9)]) :
    rxFwver a len data s = raise .malformedResponse s := if_neg h

theorem ofNat_two_pow (w n : Nat) : BitVec.ofNat w (2 ^ n) = BitVec.twoPow w n :=
  BitVec.eq_of_toNat_eq (by rw [BitVec.toNat_ofNat, BitVec.toNat_twoPow])

theorem rxEnum_eq (a : DevNo) (s : State) :
    rxEnum a s = if s.state = .idle ∧ s.cnt ≠ 0 ∧ a ≠ 0 then
      { s with pres := s.pres ||| BitVec.twoPow 64 a.toNat } else s := by
  simp only [rxEnum, settling_eq_true, and_assoc]
  split
  case isTrue h => rw [setPresent, if_neg h.2.2, ofNat_two_pow]
  case isFalse => rfl

theorem complete_eq (ok : Bool) (len : Len) (data : Payload) (s : State) :
    complete ok len data s = { s with
      res := slotsAfter (head s) (slotOf ok len data) s.res
      rd := (s.rd + 1) % s.cfg.n
      state := .idle
      cnt := 0 } := by
  rw [complete, retire_eq_slotsAfter]
  rfl

/-- An acknowledgement and a reply of any other class end alike (R208, R210): only where they complete the head is
there anything for `dispatch()` to launch. -/
theorem dispatch_ite_complete (hs : Inv s) (p : Prop) [Decidable p] (ok : Bool) (len : Len) (data : Payload) :
    dispatch (if p then complete ok len data s else s) = if p then
      dispatch { s with
        res := slotsAfter (head s) (slotOf ok len data) s.res
        rd := (s.rd + 1) % s.cfg.n
        state := .idle
        cnt := 0 } else s := by
  rw [apply_ite dispatch, complete_eq, dispatch_of_not hs.no_idle_work]

end

/-- Settles O32: the length test fails in the row's action, if it has not failed before it already. -/
theorem malformedStatusFrameIsDropped : Obligations.MalformedStatusFrameIsDropped := by
  intro s a len data hs
  refine ⟨fun k hlen => ?_, fun hlen => ?_⟩
  · have hrow : exec (statusRow k a len data) s = .next { s with err := s.err ||| 8 } := by
      rw [exec_statusRow, receive_of_malformed hs (rxStatus_of_length_ne hlen)]
    exact ⟨hrow, (exec_rxf_identOf (rxKind_clsStatus hs.config k)).trans hrow⟩
  · have hrow : exec (.rxfFwver a len data) s = .next { s with err := s.err ||| 8 } := by
      rw [exec_rxfFwver, receive_of_malformed hs (rxFwver_of_length_ne hlen)]
    exact ⟨hrow, (exec_rxf_identOf (rxKind_clsFwver hs.config)).trans hrow⟩

/-- Settles O36: the bitmap is none of the components that make idle work (I5), so `dispatch()` changes nothing. -/
theorem enumReplySetsItsBit : Obligations.EnumReplySetsItsBit := by
  intro s a len data hs hlen t
  have hnowork : ¬ (t.state = .idle ∧ t.wr ≠ t.rd ∧ t.cnt = 0) := by
    unfold t
    split <;> exact hs.no_idle_work
  have hrow : exec (.rxfEnumReply a len data) s = .next t := by
    rw [exec_rxfEnumReply, receive_of_le hlen, rxEnum_eq, dispatch_of_not hnowork]
  exact ⟨hrow, (exec_rxf_identOf (rxKind_clsEnumReply hs.config)).trans hrow⟩

/-- Settles O37: neither the device number nor the payload reaches the action (R208). -/
theorem ackRetiresTheHead : Obligations.AckRetiresTheHead := by
  intro s a len data hs hlen t
  have hrow : exec (.rxfAck a len data) s = .next t := by
    rw [exec_rxfAck, receive_of_le hlen, rxAck, dispatch_ite_complete hs]
    rfl
  exact ⟨hrow, (exec_rxf_identOf (rxKind_clsAck hs.config)).trans hrow⟩

/-- Settles O39: the payload goes to the slot as it is, because the row completes the head with `ok` (R210). -/
theorem otherFrameDeliversItsPayload : Obligations.OtherFrameDeliversItsPayload := by
  intro s cls a len data hs hlen t
  have hrow : exec (.rxfOther cls a len data) s = .next t := by
    rw [exec_rxfOther, receive_of_le hlen, rxOther, dispatch_ite_complete hs]
    rfl
  exact ⟨hrow, fun hkind => (exec_rxf_identOf hkind).trans hrow⟩

end Sys2Proof.Machine

/-! QueueFull (R231): what a full ring leaves of the four operations that push, and why no event of the interrupt
context can raise it. -/

namespace Sys2Proof.Machine

/-! ## The operations that push, on a full ring (R77, R140 to R143) -/

section

variable {s : State} {len : Len} {r : SlotIx}

theorem lenReserved_of_le (h : len.toNat ≤ 8) : lenReserved len = false := decide_eq_false (Nat.not_lt.2 h)

theorem hostEnqueue_of_full (hfull : isFull s = true) (e : QEntry) :
    hostEnqueue e s = answer .queueFull (raise .queueFull s) := by
  simp only [hostEnqueue, (push_eq_none_iff s e).2 hfull]

/-- The `dispatch()` after the declined push finds the work of the state before the operation, so by I5 none. -/
theorem engineEnqueue_of_full (hfull : isFull s = true) (hwork : ¬ (s.state = .idle ∧ s.wr ≠ s.rd ∧ s.cnt = 0))
    (e : QEntry) : engineEnqueue e s = answer .queueFull (raise .queueFull s) := by
  have hdispatch : dispatch (raise .queueFull s) = raise .queueFull s := dispatch_of_not hwork
  simp only [engineEnqueue, (push_eq_none_iff s e).2 hfull, hdispatch]

/-- `invalidateAll` writes the nine fields one by one; R142 speaks of the file as a whole. -/
theorem invalidateAll_eq (s : State) :
    invalidateAll s = { s with field := s.field.map fun f => ⟨f.value, false⟩ } := by
  have hfield : (Vector.ofFn fun k : Fin 9 => { s.field[k] with valid := false }) =
      s.field.map fun f => ⟨f.value, false⟩ :=
    Vector.ext fun k hk => by rw [Vector.getElem_ofFn, Vector.getElem_map]; rfl
  rw [invalidateAll, hfield]

theorem exec_enq_of_le (h : len.toNat ≤ 8) (cls : Cls) (a : DevNo) (data : Payload) :
    exec (.enq cls a len data) s = .next (hostEnqueue ⟨a, cls, len, data, false, 0⟩ s) := by
  change execEnq cls a len data s = _
  simp only [execEnq, lenReserved_of_le h, Bool.false_eq_true, ↓reduceIte]

/-- The test for room stands before the preset of the slot (R141). -/
theorem exec_enqr_of_full (harg : enqrBadArg len r s = false) (hfull : isFull s = true) (cls : Cls) (a : DevNo)
    (data : Payload) : exec (.enqr cls a len data r) s = .next (answer .queueFull (raise .queueFull s)) := by
  change execEnqr cls a len data r s = _
  simp only [execEnqr, harg, hfull, Bool.false_eq_true, ↓reduceIte]

theorem exec_setaddr_of_ne_zero {a : DevNo} (ha : a ≠ 0) :
    exec (.setaddr a) s =
      .next (engineEnqueue (bareEntry a s.cfg.clsFwver) (invalidateAll { s with target := a })) := by
  change execSetaddr a s = _
  rw [execSetaddr, if_neg ha]

theorem exec_enum (s : State) :
    exec .enum s = .next (engineEnqueue (bareEntry 0 s.cfg.clsEnum) { s with pres := 0 }) := rfl

end

/-! ## The error bits of TICK (R175 to R180) -/

section

variable {s t : State} {i : Instr}

/-- Every error outcome but QueueFull has a bit of `ERR` of its own above bit 0 (R38). -/
theorem raise_qfull {e : ErrorOutcome} (he : e ≠ .queueFull) (s : State) :
    (raise e s).err.getLsbD 0 = s.err.getLsbD 0 := by
  have hmask : e.mask.getLsbD 0 = false := by
    cases e with
    | queueFull => exact absurd rfl he
    | _ => rfl
  rw [raise_err, BitVec.getLsbD_or, hmask, Bool.or_false]

theorem recover_qfull {e : ErrorOutcome} (he : e ≠ .queueFull) (s : State) :
    (recover e s).err.getLsbD 0 = s.err.getLsbD 0 := by
  rw [recover_err]
  exact raise_qfull he s

/-- An expiry raises the error of its own time-out or none. -/
theorem expire_qfull (s : State) : (expire s).err.getLsbD 0 = s.err.getLsbD 0 := by
  unfold expire
  cases s.state with
  | idle => rfl
  | waitForSend => exact recover_qfull (by decide) _
  | waitForAck => exact recover_qfull (by decide) _

theorem countDown_qfull (s : State) : (countDown s).err.getLsbD 0 = s.err.getLsbD 0 := by
  unfold countDown
  split_ifs
  · rfl
  · exact expire_qfull _
  · rfl

/-! ## TXC raises nothing (R181 to R184) -/

theorem txComplete_err {action : State → State} (h : ∀ t, (action t).err = t.err) :
    (txComplete action s).err = s.err := by
  rw [txComplete, dispatch_err]
  split_ifs
  · exact h _
  · rfl

/-- Each row of a frame just sent retires the head or begins a wait; neither touches `ERR`. -/
theorem exec_sentRow_err (hi : isSentRow i = true) (hx : exec i s = .next t) : t.err = s.err := by
  cases i with
  | txcEnum => cases hx; exact txComplete_err fun t => by rw [toIdle_err, retire_err]
  | txcUntagged => cases hx; exact txComplete_err fun t => by rw [toIdle_err, retire_err]
  | txcTaggedLongDl => cases hx; exact txComplete_err fun t => toWaitForAck_err ..
  | txcTaggedLongSd => cases hx; exact txComplete_err fun t => toWaitForAck_err ..
  | txcTagged => cases hx; exact txComplete_err fun t => toWaitForAck_err ..
  | _ => cases hi

/-- TXC is the row of the head's class, or is ignored (R111, R181). -/
theorem exec_txc_cases (s : State) :
    (∃ row, isSentRow row = true ∧ exec .txc s = exec row s) ∨ exec .txc s = .next (dispatch s) := by
  change (∃ row, isSentRow row = true ∧ execTxc s = exec row s) ∨ execTxc s = .next (dispatch s)
  unfold execTxc
  split
  case isFalse => exact .inr rfl
  case isTrue =>
    left
    split
    · exact ⟨.txcEnum (head s).addr, rfl, rfl⟩
    · exact ⟨.txcUntagged ((head s).cls.extractLsb' 0 10) (head s).addr, rfl, rfl⟩
    · split
      · exact ⟨.txcTaggedLongDl (head s).addr, rfl, rfl⟩
      · exact ⟨.txcTaggedLongSd (head s).cls (head s).addr, rfl, rfl⟩
    · exact ⟨.txcTagged (head s).cls (head s).addr, rfl, rfl⟩

theorem exec_txc_err (hx : exec .txc s = .next t) : t.err = s.err := by
  rcases exec_txc_cases s with ⟨row, hrow, h⟩ | h
  · exact exec_sentRow_err hrow (h.symm.trans hx)
  · cases h.symm.trans hx
    exact dispatch_err s

theorem exec_err_of_eventOf_txc (hi : eventOf i = .txc) (hx : exec i s = .next t) : t.err = s.err := by
  by_cases htxc : i = .txc
  · subst htxc
    exact exec_txc_err hx
  · exact exec_sentRow_err (by simp [isSentRow, hi, htxc]) hx

/-! ## The error bits of RXF (R200 to R210) -/

/-- What the row of a received frame does between the test of the length and `dispatch()` (R200). -/
def receivedAction (kind : RxKind) (cls : Cls) (a : DevNo) (len : Len) (data : Payload) : State → State :=
  match kind with
  | .status k => rxStatus k a len data
  | .fwver => rxFwver a len data
  | .enumReply => rxEnum a
  | .ack => rxAck
  | .updack => rxUpdack
  | .other => rxOther cls a len data

section

variable (cls : Cls) (a : DevNo) (len : Len) (data : Payload) (s : State)

theorem exec_receivedRow (kind : RxKind) :
    exec (receivedRow kind cls a len data) s = .next (receive len (receivedAction kind cls a len data) s) := by
  cases kind with
  | status k => exact exec_statusRow k a len data s
  | _ => rfl

theorem retireByStatus_err : (retireByStatus cls a len data s).err = s.err := by
  rw [retireByStatus, apply_ite State.err, complete_err, ite_self]

theorem statusFrame_err (k : Fin 9) : (statusFrame k a len data s).err = s.err := by
  rw [statusFrame, retireByStatus_err, updateField_err]

/-- A full ring drops a chained poll under an error of its own, ChainDrop (R205). -/
theorem chainPoll_qfull (k : Fin 8) : (chainPoll k s).err.getLsbD 0 = s.err.getLsbD 0 := by
  rcases chainPoll_cases s k with ⟨_, h⟩ | ⟨_, _, _, _, hpush, h⟩ | ⟨_, _, _, _, h⟩
  · rw [h]
  · obtain ⟨_, rfl⟩ := push_eq_some hpush
    rw [h]
  · rw [h]
    exact raise_qfull (by decide) s

theorem rxStatus_qfull (k : Fin 8) : (rxStatus k a len data s).err.getLsbD 0 = s.err.getLsbD 0 := by
  unfold rxStatus
  split_ifs
  · rw [chainPoll_qfull, statusFrame_err]
  · exact raise_qfull (by decide) s

theorem rxFwver_qfull : (rxFwver a len data s).err.getLsbD 0 = s.err.getLsbD 0 := by
  unfold rxFwver
  split_ifs
  · rw [statusFrame_err]
  · exact raise_qfull (by decide) s

theorem rxEnum_err : (rxEnum a s).err = s.err := by
  rw [rxEnum, apply_ite State.err, setPresent_err, ite_self]

theorem rxAck_err : (rxAck s).err = s.err := by
  rw [rxAck, apply_ite State.err, complete_err, ite_self]

theorem rxOther_err : (rxOther cls a len data s).err = s.err := by
  rw [rxOther, apply_ite State.err, complete_err, ite_self]

theorem receivedAction_qfull (kind : RxKind) :
    (receivedAction kind cls a len data s).err.getLsbD 0 = s.err.getLsbD 0 := by
  cases kind with
  | status k => exact rxStatus_qfull a len data s k
  | fwver => exact rxFwver_qfull a len data s
  | enumReply => exact congrArg (BitVec.getLsbD · 0) (rxEnum_err a s)
  | ack => exact congrArg (BitVec.getLsbD · 0) (rxAck_err s)
  | updack => exact congrArg (BitVec.getLsbD · 0) (rxAck_err { s with updack := true })
  | other => exact congrArg (BitVec.getLsbD · 0) (rxOther_err cls a len data s)

end

theorem receive_qfull {action : State → State} (len : Len)
    (h : (action s).err.getLsbD 0 = s.err.getLsbD 0) :
    (receive len action s).err.getLsbD 0 = s.err.getLsbD 0 := by
  rw [receive, dispatch_err]
  split_ifs
  · exact raise_qfull (by decide) s
  · exact h

/-- RXF and its rows all are the row of some kind of received frame (R110). -/
theorem exists_receivedRow (hi : eventOf i = .rxf) (s : State) :
    ∃ kind cls a len data, exec i s = exec (receivedRow kind cls a len data) s := by
  cases i with
  | rxf id len data =>
    have hrow := exec_rxf_identOf (s := s) (a := devNoOf id) (len := len) (data := data)
      (rfl : rxKind s.cfg (classOf id) = _)
    rw [identOf_classOf_devNoOf] at hrow
    exact ⟨_, _, _, _, _, hrow⟩
  | rxfStatusVout a len data => exact ⟨.status 0, 0, a, len, data, rfl⟩
  | rxfStatusVbus a len data => exact ⟨.status 1, 0, a, len, data, rfl⟩
  | rxfStatusCurrent a len data => exact ⟨.status 2, 0, a, len, data, rfl⟩
  | rxfStatusTemp a len data => exact ⟨.status 3, 0, a, len, data, rfl⟩
  | rxfStatusPosition a len data => exact ⟨.status 4, 0, a, len, data, rfl⟩
  | rxfStatusSpeed a len data => exact ⟨.status 5, 0, a, len, data, rfl⟩
  | rxfStatusLimit a len data => exact ⟨.status 6, 0, a, len, data, rfl⟩
  | rxfStatusFault a len data => exact ⟨.status 7, 0, a, len, data, rfl⟩
  | rxfFwver a len data => exact ⟨.fwver, 0, a, len, data, rfl⟩
  | rxfEnumReply a len data => exact ⟨.enumReply, 0, a, len, data, rfl⟩
  | rxfAck a len data => exact ⟨.ack, 0, a, len, data, rfl⟩
  | rxfUpdack a len data => exact ⟨.updack, 0, a, len, data, rfl⟩
  | rxfOther cls a len data => exact ⟨.other, cls, a, len, data, rfl⟩
  | _ => cases hi

theorem exec_qfull_of_eventOf_rxf (hi : eventOf i = .rxf) (hx : exec i s = .next t) :
    t.err.getLsbD 0 = s.err.getLsbD 0 := by
  obtain ⟨kind, cls, a, len, data, hrow⟩ := exists_receivedRow hi s
  rw [exec_receivedRow] at hrow
  cases hrow.symm.trans hx
  exact receive_qfull len (receivedAction_qfull cls a len data s kind)

/-! ## No interrupt event raises QueueFull (R231) -/

/-- The interrupt rows of the context column of R107. -/
theorem Event.context_eq_interrupt_iff (e : Event) : e.context = .interrupt ↔ e = .tick ∨ e = .txc ∨ e = .rxf := by
  cases e <;> decide

/-- TICK has no second-level rows. -/
theorem eq_tick_of_eventOf (hi : eventOf i = .tick) : i = .tick := by
  cases i with
  | tick => rfl
  | _ => cases hi

theorem exec_qfull_of_interrupt (hi : (eventOf i).context = .interrupt) (hx : exec i s = .next t) :
    t.err.getLsbD 0 = s.err.getLsbD 0 := by
  rcases (Event.context_eq_interrupt_iff _).1 hi with htick | htxc | hrxf
  · obtain rfl := eq_tick_of_eventOf htick
    cases hx
    rw [dispatch_err, countDown_qfull]
  · rw [exec_err_of_eventOf_txc htxc hx]
  · exact exec_qfull_of_eventOf_rxf hrxf hx

end

/-- Settles O44: a declined push is `raise` and `answer` over what the operation wrote before it, and the errors the
interrupt context raises have other bits than `ERR.QFULL`. -/
theorem queueFullIsPrecise : Obligations.QueueFullIsPrecise := by
  intro s hs
  refine ⟨fun hring => ?_, fun i t hi hx => exec_qfull_of_interrupt hi hx⟩
  have hfull : isFull s = true := (isFull_eq_true s).2 hring
  refine ⟨fun cls a len data hlen => ?enq, fun cls a len data r hlen hr hslot => ?enqr, fun a ha => ?setaddr, ?enum⟩
  case enq =>
    rw [exec_enq_of_le hlen, hostEnqueue_of_full hfull]
    rfl
  case enqr =>
    rw [exec_enqr_of_full (enqrBadArg_of_hostOwnsSlot hslot hr hlen) hfull]
    rfl
  case setaddr =>
    rw [exec_setaddr_of_ne_zero ha,
      engineEnqueue_of_full (s := invalidateAll { s with target := a }) hfull hs.no_idle_work, invalidateAll_eq]
    rfl
  case enum =>
    rw [exec_enum, engineEnqueue_of_full (s := { s with pres := 0 }) hfull hs.no_idle_work]
    rfl

end Sys2Proof.Machine

/-! The engine side of an event: what any event but RESET does to the scheduler, the ring, the slots and the bus, said
once. The statements about the whole machine are read off these cases. -/

namespace Sys2Proof.Machine

/-! ## The engine's own components -/

/-- `t` agrees with `s` on the scheduler, the ring, the result slots and the outputs to the bus. The other components
(the monitored values, the host's registers, `ERR`, the results) may differ: no move of the engine reads them. -/
structure SameEngine (s t : State) : Prop where
  cfg : t.cfg = s.cfg := by rfl
  state : t.state = s.state := by rfl
  cnt : t.cnt = s.cnt := by rfl
  rd : t.rd = s.rd := by rfl
  wr : t.wr = s.wr := by rfl
  q : t.q = s.q := by rfl
  res : t.res = s.res := by rfl
  txslot : t.txslot = s.txslot := by rfl
  busOut : t.busOut = s.busOut := by rfl

section

variable {s t u : State}

theorem SameEngine.refl (s : State) : SameEngine s s := {}

theorem SameEngine.trans (h : SameEngine s t) (h' : SameEngine t u) : SameEngine s u :=
  ⟨h'.cfg.trans h.cfg, h'.state.trans h.state, h'.cnt.trans h.cnt, h'.rd.trans h.rd, h'.wr.trans h.wr,
    h'.q.trans h.q, h'.res.trans h.res, h'.txslot.trans h.txslot, h'.busOut.trans h.busOut⟩

theorem SameEngine.head_eq (h : SameEngine s t) : head t = head s := head_congr h.rd h.q

theorem SameEngine.isFull_eq (h : SameEngine s t) : isFull t = isFull s := isFull_congr h.rd h.wr h.cfg

/-- `dispatch()` reads nothing but the engine's own components (R171). -/
theorem SameEngine.dispatch (h : SameEngine s t) : SameEngine (dispatch s) (dispatch t) := by
  rcases dispatch_cases s with ⟨hs, hne, hc, heq⟩ | ⟨hno, heq⟩
  · rcases dispatch_cases t with ⟨_, _, _, heq'⟩ | ⟨hno', _⟩
    · rw [heq, heq']
      have hcnt : t.cfg.tSend = s.cfg.tSend := congrArg Config.tSend h.cfg
      have hslot : TxSlot.mk true (frameOf (head t)) = ⟨true, frameOf (head s)⟩ := by rw [h.head_eq]
      have hout : t.busOut ++ [.txStart (frameOf (head t))] = s.busOut ++ [.txStart (frameOf (head s))] := by
        rw [h.busOut, h.head_eq]
      exact { cfg := h.cfg, cnt := hcnt, rd := h.rd, wr := h.wr, q := h.q, res := h.res, txslot := hslot,
              busOut := hout }
    · rw [h.state, h.wr, h.rd, h.cnt] at hno'
      exact absurd ⟨hs, hne, hc⟩ hno'
  · have hno' : ¬ (t.state = .idle ∧ t.wr ≠ t.rd ∧ t.cnt = 0) := by rwa [h.state, h.wr, h.rd, h.cnt]
    rw [heq, dispatch_of_not hno']
    exact h

/-- So does `push` (R77). -/
theorem SameEngine.push {e : QEntry} (h : SameEngine s t) {t' : State} (hp : push e t = some t') :
    ∃ s', push e s = some s' ∧ SameEngine s' t' := by
  obtain ⟨hf, rfl⟩ := push_eq_some hp
  rcases push_cases s e with ⟨hfull, _⟩ | ⟨_, hs⟩
  · rw [h.isFull_eq, hfull] at hf
    cases hf
  · have hwr : (t.wr + 1) % t.cfg.n = (s.wr + 1) % s.cfg.n := by rw [h.wr, h.cfg]
    have hq : t.q.set t.wr e = s.q.set s.wr e := by rw [h.q, h.wr]
    exact ⟨_, hs, { h with wr := hwr, q := hq }⟩

end

/-! ## The moves -/

/-- The abort that goes with the expiry of the countdown of a launch (R177). -/
def abortOf (i : Instr) (s : State) : List BusOut :=
  if i = .tick ∧ s.state = .waitForSend ∧ s.cnt = 1 then [.txAbort] else []

/-- What an event does to the entry in flight and to the countdown, before it enqueues anything: nothing, a decrement
(R175), the wait for an acknowledgement (R184), or the retirement of the entry (R172). -/
inductive EngineMove (i : Instr) (s : State) : State → Prop
  | keep (hi : i = .tick → s.cnt = 0) : EngineMove i s s
  | countDown (hi : i = .tick) (hrun : 2 ≤ s.cnt ∨ s.state = .idle ∧ s.cnt = 1) :
      EngineMove i s { s with cnt := s.cnt - 1 }
  | await (hi : eventOf i = .txc) (hs : s.state = .waitForSend) (load : Nat)
      (hload : load = s.cfg.tAck ∨ load = s.cfg.tUpdate) :
      EngineMove i s { s with txslot := ⟨false, s.txslot.frame⟩, state := .waitForAck, cnt := load }
  | retire (hi : (eventOf i).context = .interrupt) (htick : i = .tick → s.cnt = 1) (hs : s.state ≠ .idle)
      (v : ResSlot) (hv : v.st = .done ∨ v = ⟨.timeout, 0, 0⟩)
      (load : Nat) (hload : load = 0 ∨ load = s.cfg.tSettle)
      (busy : Bool) (hbusy : busy = true → s.state = .waitForAck ∧ s.txslot.v = true) :
      EngineMove i s { s with
        res := slotsAfter (head s) v s.res
        rd := (s.rd + 1) % s.cfg.n
        state := .idle
        cnt := load
        txslot := ⟨busy, s.txslot.frame⟩
        busOut := s.busOut ++ abortOf i s }

/-- What an event enqueues: nothing, an entry without a result reference (R115, R140), or the entry of an accepted
ENQR over its preset slot (R141). -/
inductive Enqueue (i : Instr) (s : State) : State → Prop
  | none : Enqueue i s s
  | plain {t : State} (e : QEntry) (hlen : e.len.toNat ≤ 8) (hrv : e.rv = false) (hp : push e s = some t) :
      Enqueue i s t
  | referenced {t : State} (cls : Cls) (a : DevNo) (len : Len) (data : Payload) (r : SlotIx)
      (hi : i = .enqr cls a len data r) (hlen : len.toNat ≤ 8) (hr : r.toNat < s.cfg.r)
      (hfree : (readSlot s r).st ≠ .pending)
      (hp : push ⟨a, cls, len, data, true, r⟩ (writeSlot r ResSlot.preset s) = some t) : Enqueue i s t

/-- `w` is what a move and an enqueue make of the engine's side of `s`: the state in which `dispatch()` runs. -/
def Acts (i : Instr) (s w : State) : Prop := ∃ u v, EngineMove i s u ∧ Enqueue i u v ∧ SameEngine v w

section

variable {i : Instr} {s u w : State}

theorem Acts.of_move (hm : EngineMove i s u) (h : SameEngine u w) : Acts i s w := ⟨u, u, hm, .none, h⟩

theorem Acts.of_sameEngine (hi : i ≠ .tick) (h : SameEngine s w) : Acts i s w :=
  .of_move (.keep fun h => absurd h hi) h

theorem Acts.of_enqueue {v : State} (hi : i ≠ .tick) (he : Enqueue i s v) (h : SameEngine v w) : Acts i s w :=
  ⟨s, v, .keep fun h => absurd h hi, he, h⟩

/-- What `retire` writes is a response or the TIMEOUT marker (R172). -/
theorem slotOf_cases (ok : Bool) (len : Len) (data : Payload) :
    (slotOf ok len data).st = .done ∨ slotOf ok len data = ⟨.timeout, 0, 0⟩ := by
  cases ok with
  | true => exact .inl rfl
  | false => exact .inr rfl

/-! ## TICK (R175 to R180) -/

theorem acts_countDown (s : State) : Acts .tick s (countDown s) := by
  by_cases h0 : s.cnt = 0
  · rw [countDown_of_cnt_eq_zero h0]
    exact .of_move (.keep fun _ => h0) {}
  by_cases h1 : s.cnt = 1
  · cases hs : s.state with
    | idle =>
      have hw : countDown s = { s with cnt := 0 } := by
        simp only [countDown, h1, expire, hs, one_ne_zero, ↓reduceIte]
      refine .of_move (.countDown rfl (.inr ⟨hs, h1⟩)) ?_
      rw [hw, h1]
      exact {}
    | waitForSend =>
      have habort : abortOf .tick s = [.txAbort] := if_pos ⟨rfl, hs, h1⟩
      refine .of_move (.retire rfl (fun _ => h1) (by simp [hs]) ⟨.timeout, 0, 0⟩ (.inr rfl) 0 (.inl rfl) false
        nofun) ?_
      rw [countDown_of_send_expiry hs h1, sendTimeout, recover_eq, habort]
      exact {}
    | waitForAck =>
      have habort : abortOf .tick s = [] := if_neg (by simp [hs])
      refine .of_move (.retire rfl (fun _ => h1) (by simp [hs]) ⟨.timeout, 0, 0⟩ (.inr rfl) 0 (.inl rfl) s.txslot.v
        fun hv => ⟨hs, hv⟩) ?_
      rw [countDown_of_ack_expiry hs h1, ackTimeout, recover_eq, habort, List.append_nil]
      exact {}
  · refine .of_move (.countDown rfl (.inl (by omega))) ?_
    rw [countDown, if_neg h0, if_neg h1]
    exact {}

/-! ## TXC (R181 to R184) -/

theorem abortOf_of_ne_tick (hi : i ≠ .tick) (s : State) : abortOf i s = [] := if_neg fun h => hi h.1

theorem ne_tick_of_eventOf (hi : eventOf i ≠ .tick) : i ≠ .tick := fun h => hi (h ▸ rfl)

/-- The TXC rows that retire the entry just sent, under the load of their countdown (R182, R183). -/
theorem acts_retireSent (hi : eventOf i = .txc) (hs : s.state = .waitForSend) {load : Nat}
    (hload : load = 0 ∨ load = s.cfg.tSettle) :
    Acts i s (toIdle load (retire false 0 0 { s with txslot := ⟨false, s.txslot.frame⟩ })) := by
  have htick : i ≠ .tick := ne_tick_of_eventOf (by simp [hi])
  refine .of_move (.retire (by rw [hi]; rfl) (fun h => absurd h htick) (by simp [hs]) ⟨.timeout, 0, 0⟩ (.inr rfl)
    load hload false nofun) ?_
  rw [retire_eq_slotsAfter, abortOf_of_ne_tick htick, List.append_nil]
  exact {}

/-- The TXC rows that wait for an acknowledgement (R184). -/
theorem acts_awaitSent (hi : eventOf i = .txc) (hs : s.state = .waitForSend) {load : Nat}
    (hload : load = s.cfg.tAck ∨ load = s.cfg.tUpdate) :
    Acts i s (toWaitForAck load { s with txslot := ⟨false, s.txslot.frame⟩ }) :=
  .of_move (.await hi hs load hload) {}

/-! ## RXF (R200 to R210) -/

theorem sameEngine_raise (e : ErrorOutcome) (s : State) : SameEngine s (raise e s) := {}

theorem sameEngine_updateField (k : Fin 9) (a : DevNo) (len : Len) (data : Payload) (s : State) :
    SameEngine s (updateField k a len data s) := by
  constructor <;> simp

/-- The reply that ends the wait retires the head (R204, R208, R209, R210). -/
theorem engineMove_complete (hi : eventOf i = .rxf) (h : SameEngine s w) (hw : w.state = .waitForAck) (ok : Bool)
    (len : Len) (data : Payload) : ∃ u, EngineMove i s u ∧ SameEngine u (complete ok len data w) := by
  have htick : i ≠ .tick := ne_tick_of_eventOf (by simp [hi])
  have hs : s.state = .waitForAck := h.state.symm.trans hw
  refine ⟨_, .retire (by rw [hi]; rfl) (fun h => absurd h htick) (by simp [hs]) (slotOf ok len data)
    (slotOf_cases ok len data) 0 (.inl rfl) s.txslot.v fun hv => ⟨hs, hv⟩, ?_⟩
  rw [complete_eq, abortOf_of_ne_tick htick, List.append_nil, h.head_eq, h.res, h.rd, h.cfg]
  exact { wr := h.wr, q := h.q, txslot := h.txslot, busOut := h.busOut }

theorem engineMove_ite_complete (hi : eventOf i = .rxf) (h : SameEngine s w) {p : Prop} [Decidable p]
    (hp : p → w.state = .waitForAck) (ok : Bool) (len : Len) (data : Payload) :
    ∃ u, EngineMove i s u ∧ SameEngine u (if p then complete ok len data w else w) := by
  split_ifs with hw
  · exact engineMove_complete hi h (hp hw) ok len data
  · exact ⟨s, .keep fun ht => by simp [ht, eventOf] at hi, h⟩

theorem engineMove_statusFrame (hi : eventOf i = .rxf) (k : Fin 9) (a : DevNo) (len : Len) (data : Payload)
    (s : State) : ∃ u, EngineMove i s u ∧ SameEngine u (statusFrame k a len data s) :=
  engineMove_ite_complete hi (sameEngine_updateField k a len data s) And.left _ len data

/-- The chained poll pushes one entry without a payload, or leaves the engine alone (R205). -/
theorem acts_chainPoll (hm : EngineMove i s u) (h : SameEngine u w) (k : Fin 8) : Acts i s (chainPoll k w) := by
  rcases chainPoll_cases w k with ⟨_, hw⟩ | ⟨j, t, _, _, hp, hw⟩ | ⟨_, _, _, _, hw⟩
  · rw [hw]
    exact .of_move hm h
  · obtain ⟨v, hv, hvt⟩ := h.push hp
    rw [hw]
    exact ⟨u, v, hm, .plain _ (by simp [bareEntry]) rfl hv, hvt⟩
  · rw [hw]
    exact .of_move hm (h.trans (sameEngine_raise _ w))

theorem acts_receivedAction (hi : eventOf i = .rxf) (kind : RxKind) (cls : Cls) (a : DevNo) (len : Len)
    (data : Payload) (s : State) : Acts i s (receivedAction kind cls a len data s) := by
  have htick : i ≠ .tick := ne_tick_of_eventOf (by simp [hi])
  have hraise : Acts i s (raise .malformedResponse s) := .of_sameEngine htick (sameEngine_raise _ s)
  cases kind with
  | status k =>
    obtain ⟨u, hm, hu⟩ := engineMove_statusFrame hi k.castSucc a len data s
    change Acts i s (rxStatus k a len data s)
    unfold rxStatus
    split_ifs
    · exact acts_chainPoll hm hu k
    · exact hraise
  | fwver =>
    obtain ⟨u, hm, hu⟩ := engineMove_statusFrame hi 8 a len data s
    change Acts i s (rxFwver a len data s)
    unfold rxFwver
    split_ifs
    · exact .of_move hm hu
    · exact hraise
  | enumReply =>
    change Acts i s (rxEnum a s)
    unfold rxEnum
    split_ifs
    · exact .of_sameEngine htick {}
    · exact .of_sameEngine htick {}
  | ack =>
    obtain ⟨u, hm, hu⟩ := engineMove_ite_complete hi (.refl s) id false 0 0
    exact .of_move hm hu
  | updack =>
    have hflag : SameEngine s { s with updack := true } := {}
    obtain ⟨u, hm, hu⟩ := engineMove_ite_complete hi hflag id false 0 0
    exact .of_move hm hu
  | other =>
    obtain ⟨u, hm, hu⟩ := engineMove_ite_complete (s := s) (p := s.state = .waitForAck ∧ (head s).cls = cls ∧
      (head s).addr = a) hi (.refl s) And.left true len data
    exact .of_move hm hu

end

end Sys2Proof.Machine

namespace Sys2Proof.Machine

/-! ## What each host operation can answer (R140 to R150) -/

section

variable (s : State)

theorem lenReserved_eq_true {len : Len} : lenReserved len = true ↔ 8 < len.toNat := by simp [lenReserved]

theorem lenReserved_eq_false {len : Len} : lenReserved len = false ↔ len.toNat ≤ 8 := by simp [lenReserved]

theorem enqrBadArg_eq_true {len : Len} {r : SlotIx} :
    enqrBadArg len r s = true ↔ 8 < len.toNat ∨ s.cfg.r ≤ r.toNat ∨ (readSlot s r).st = .pending := by
  simp [enqrBadArg, lenReserved_eq_true, or_assoc]

theorem exec_enq_of_lt {len : Len} (h : 8 < len.toNat) (cls : Cls) (a : DevNo) (data : Payload) :
    exec (.enq cls a len data) s = .next (refuseArg s) := by
  change execEnq cls a len data s = _
  rw [execEnq, if_pos (lenReserved_eq_true.2 h)]

theorem exec_enqr_of_badArg {len : Len} {r : SlotIx} (h : enqrBadArg len r s = true) (cls : Cls) (a : DevNo)
    (data : Payload) : exec (.enqr cls a len data r) s = .next (refuseArg s) := by
  change execEnqr cls a len data r s = _
  rw [execEnqr, if_pos h]

/-- An accepted ENQR presets its slot and then enqueues like ENQ (R141). -/
theorem exec_enqr_of_room {len : Len} {r : SlotIx} (harg : enqrBadArg len r s = false) (hroom : isFull s = false)
    (cls : Cls) (a : DevNo) (data : Payload) :
    exec (.enqr cls a len data r) s =
      .next (hostEnqueue ⟨a, cls, len, data, true, r⟩ (writeSlot r ResSlot.preset s)) := by
  change execEnqr cls a len data r s = _
  simp only [execEnqr, harg, hroom, Bool.false_eq_true, ↓reduceIte]

theorem exec_setaddr_zero : exec (.setaddr 0) s = .next (refuseArg s) := rfl

theorem exec_sweep (b : Bool) : exec (.sweep b) s = .next (answer .ok { s with sweepEn := b }) := rfl

theorem exec_rdpres : exec .rdpres s = .next (answer (.bitmap s.pres) s) := rfl

theorem exec_rdstat_of_lt {k : BitVec 4} (h : k.toNat < 9) :
    exec (.rdstat k) s = .next (answer (.stat s.field[k.toNat].value s.field[k.toNat].valid) s) := by
  change execRdstat k s = _
  rw [execRdstat, dif_pos h]

theorem exec_rdstat_of_le {k : BitVec 4} (h : 9 ≤ k.toNat) : exec (.rdstat k) s = .next (refuseArg s) := by
  change execRdstat k s = _
  rw [execRdstat, dif_neg (Nat.not_lt.2 h)]

theorem exec_rdres_of_lt {r : SlotIx} (h : r.toNat < s.cfg.r) :
    exec (.rdres r) s = .next (answer (.slot (readSlot s r).word) s) := by
  change execRdres r s = _
  rw [execRdres, if_neg (Nat.not_le.2 h)]

theorem exec_rdres_of_le {r : SlotIx} (h : s.cfg.r ≤ r.toNat) : exec (.rdres r) s = .next (refuseArg s) := by
  change execRdres r s = _
  rw [execRdres, if_pos h]

theorem exec_rdreg_of_some {n : BitVec 4} {v : BitVec 32} (h : readReg s n = some v) :
    exec (.rdreg n) s = .next (answer (.value v) s) := by
  change execRdreg n s = _
  simp only [execRdreg, h]

theorem exec_rdreg_of_none {n : BitVec 4} (h : readReg s n = none) : exec (.rdreg n) s = .next (refuseArg s) := by
  change execRdreg n s = _
  simp only [execRdreg, h]

/-- The read operations answer or refuse; neither looks like anything else (R145, R147, R149). -/
def AnswersOrRefuses (i : Instr) : Prop :=
  (∃ r, exec i s = .next (answer r s)) ∨ exec i s = .next (refuseArg s)

theorem rdstat_answersOrRefuses (k : BitVec 4) : AnswersOrRefuses s (.rdstat k) :=
  (lt_or_ge k.toNat 9).imp (fun h => ⟨_, exec_rdstat_of_lt s h⟩) (exec_rdstat_of_le s)

theorem rdres_answersOrRefuses (r : SlotIx) : AnswersOrRefuses s (.rdres r) :=
  (lt_or_ge r.toNat s.cfg.r).imp (fun h => ⟨_, exec_rdres_of_lt s h⟩) (exec_rdres_of_le s)

theorem rdreg_answersOrRefuses (n : BitVec 4) : AnswersOrRefuses s (.rdreg n) := by
  cases h : readReg s n with
  | some v => exact .inl ⟨_, exec_rdreg_of_some s h⟩
  | none => exact .inr (exec_rdreg_of_none s h)

end

/-! ## The engine side of every event -/

section

variable {i : Instr} {s t w : State}

/-- The engine side of a whole event: nothing at all (a host operation that ends before `dispatch()`), or a move, an
enqueue and `dispatch()`. -/
def EngineStep (i : Instr) (s t : State) : Prop :=
  i ≠ .tick ∧ SameEngine s t ∨ ∃ w, Acts i s w ∧ SameEngine (dispatch w) t

theorem EngineStep.of_acts (h : Acts i s w) : EngineStep i s (dispatch w) := .inr ⟨w, h, .refl _⟩

theorem engineStep_receive (hi : eventOf i = .rxf) (kind : RxKind) (cls : Cls) (a : DevNo) (len : Len)
    (data : Payload) (s : State) : EngineStep i s (receive len (receivedAction kind cls a len data) s) := by
  unfold receive
  split_ifs
  · exact .of_acts (.of_sameEngine (ne_tick_of_eventOf (by simp [hi])) (sameEngine_raise _ s))
  · exact .of_acts (acts_receivedAction hi kind cls a len data s)

theorem engineStep_of_rxf (hi : eventOf i = .rxf) (hx : exec i s = .next t) : EngineStep i s t := by
  obtain ⟨kind, cls, a, len, data, hrow⟩ := exists_receivedRow hi s
  rw [exec_receivedRow] at hrow
  cases hrow.symm.trans hx
  exact engineStep_receive hi kind cls a len data s

/-- The frame common to the TXC rows (R181). -/
theorem engineStep_txComplete (hi : eventOf i = .txc) {action : State → State}
    (h : s.state = .waitForSend → Acts i s (action { s with txslot := ⟨false, s.txslot.frame⟩ })) :
    EngineStep i s (txComplete action s) := by
  unfold txComplete
  split_ifs with hs
  · exact .of_acts (h hs)
  · exact .of_acts (.of_sameEngine (ne_tick_of_eventOf (by simp [hi])) {})

/-- A row of the frame just sent, run as the event `i` itself or by the event TXC. -/
theorem engineStep_of_sentRow {row : Instr} (hi : eventOf i = .txc) (hrow : isSentRow row = true)
    (hx : exec row s = .next t) : EngineStep i s t := by
  cases row with
  | txcEnum => cases hx; exact engineStep_txComplete hi fun hs => acts_retireSent hi hs (.inr rfl)
  | txcUntagged => cases hx; exact engineStep_txComplete hi fun hs => acts_retireSent hi hs (.inl rfl)
  | txcTaggedLongDl => cases hx; exact engineStep_txComplete hi fun hs => acts_awaitSent hi hs (.inr rfl)
  | txcTaggedLongSd => cases hx; exact engineStep_txComplete hi fun hs => acts_awaitSent hi hs (.inr rfl)
  | txcTagged => cases hx; exact engineStep_txComplete hi fun hs => acts_awaitSent hi hs (.inl rfl)
  | _ => cases hrow

theorem engineStep_of_txc (hi : eventOf i = .txc) (hx : exec i s = .next t) : EngineStep i s t := by
  by_cases htxc : i = .txc
  · subst htxc
    rcases exec_txc_cases s with ⟨row, hrow, h⟩ | h
    · exact engineStep_of_sentRow hi hrow (h.symm.trans hx)
    · cases h.symm.trans hx
      exact .of_acts (.of_sameEngine nofun {})
  · exact engineStep_of_sentRow hi (by simp [isSentRow, hi, htxc]) hx

theorem engineStep_answer {r : HostResult} (h : EngineStep i s t) : EngineStep i s (answer r t) := by
  rcases h with ⟨hi, h⟩ | ⟨w, hw, h⟩
  · exact .inl ⟨hi, h.trans {}⟩
  · exact .inr ⟨w, hw, h.trans {}⟩

theorem engineStep_hostEnqueue (hi : i ≠ .tick) {e : QEntry} (hpush : ∀ t, push e w = some t → Enqueue i s t)
    (hfull : isFull w = false ∨ SameEngine s w) : EngineStep i s (hostEnqueue e w) := by
  rcases hostEnqueue_cases w e with ⟨t, hp, heq⟩ | ⟨hf, heq⟩
  · rw [heq]
    exact engineStep_answer (.of_acts (.of_enqueue hi (hpush t hp) (.refl t)))
  · rw [heq]
    rcases hfull with hroom | hsame
    · simp [hroom] at hf
    · exact .inl ⟨hi, hsame.trans {}⟩

/-- SETADDR and ENUM write the host's side, and then enqueue an entry of the engine's own (R142, R143). -/
theorem engineStep_engineEnqueue (hi : i ≠ .tick) (h : SameEngine s w) (a : DevNo) (cls : Cls) :
    EngineStep i s (engineEnqueue (bareEntry a cls) w) := by
  rcases engineEnqueue_cases w (bareEntry a cls) with ⟨t, hp, heq⟩ | ⟨_, heq⟩
  · obtain ⟨v, hv, hvt⟩ := h.push hp
    rw [heq]
    exact engineStep_answer (.of_acts (.of_enqueue hi (.plain _ (by simp [bareEntry]) rfl hv) hvt))
  · rw [heq]
    exact engineStep_answer (.of_acts (.of_sameEngine hi (h.trans (sameEngine_raise _ w))))

theorem engineStep_refuseArg (hi : i ≠ .tick) (s : State) : EngineStep i s (refuseArg s) := .inl ⟨hi, {}⟩

theorem AnswersOrRefuses.engineStep (h : AnswersOrRefuses s i) (hi : i ≠ .tick) (hx : exec i s = .next t) :
    EngineStep i s t := by
  rcases h with ⟨r, h⟩ | h
  · cases h.symm.trans hx
    exact .inl ⟨hi, {}⟩
  · cases h.symm.trans hx
    exact engineStep_refuseArg hi s

theorem engineStep_enq (cls : Cls) (a : DevNo) (len : Len) (data : Payload)
    (hx : exec (.enq cls a len data) s = .next t) : EngineStep (.enq cls a len data) s t := by
  by_cases hlen : len.toNat ≤ 8
  · cases (exec_enq_of_le hlen cls a data).symm.trans hx
    exact engineStep_hostEnqueue (by simp) (fun t hp => .plain _ hlen rfl hp) (.inr (.refl s))
  · cases (exec_enq_of_lt s (Nat.not_le.1 hlen) cls a data).symm.trans hx
    exact engineStep_refuseArg (by simp) s

theorem engineStep_enqr (cls : Cls) (a : DevNo) (len : Len) (data : Payload) (r : SlotIx)
    (hx : exec (.enqr cls a len data r) s = .next t) : EngineStep (.enqr cls a len data r) s t := by
  cases harg : enqrBadArg len r s with
  | true =>
    cases (exec_enqr_of_badArg s harg cls a data).symm.trans hx
    exact engineStep_refuseArg (by simp) s
  | false =>
    cases hroom : isFull s with
    | true =>
      cases (exec_enqr_of_full harg hroom cls a data).symm.trans hx
      exact .inl ⟨nofun, {}⟩
    | false =>
      cases (exec_enqr_of_room s harg hroom cls a data).symm.trans hx
      have hok := (enqrBadArg_eq_true s).not.1 (Bool.eq_false_iff.1 harg)
      simp only [not_or, not_lt, not_le] at hok
      obtain ⟨hlen, hr, hfree⟩ := hok
      exact engineStep_hostEnqueue (by simp) (fun t hp => .referenced cls a len data r rfl hlen hr hfree hp)
        (.inl hroom)

/-- Every event but RESET moves the engine in one of these ways. -/
theorem engineStep_exec (hi : i ≠ .reset) (hx : exec i s = .next t) : EngineStep i s t := by
  cases i with
  | tick => cases hx; exact .of_acts (acts_countDown s)
  | enq cls a len data => exact engineStep_enq cls a len data hx
  | enqr cls a len data r => exact engineStep_enqr cls a len data r hx
  | setaddr a =>
    by_cases ha : a = 0
    · subst ha
      cases (exec_setaddr_zero s).symm.trans hx
      exact engineStep_refuseArg (by simp) s
    · cases (exec_setaddr_of_ne_zero ha).symm.trans hx
      exact engineStep_engineEnqueue (s := s) (by simp) (by constructor <;> rfl) a _
  | enum => cases hx; exact engineStep_engineEnqueue (s := s) (by simp) (by constructor <;> rfl) 0 _
  | sweep b => cases hx; exact .inl ⟨nofun, {}⟩
  | rdstat k => exact (rdstat_answersOrRefuses s k).engineStep nofun hx
  | rdpres => cases hx; exact .inl ⟨nofun, {}⟩
  | rdres r => exact (rdres_answersOrRefuses s r).engineStep nofun hx
  | takeupd => cases hx; exact .inl ⟨nofun, {}⟩
  | rdreg n => exact (rdreg_answersOrRefuses s n).engineStep nofun hx
  | clrerr m => cases hx; exact .inl ⟨nofun, {}⟩
  | reserved14 rest => cases hx
  | reset => exact absurd rfl hi
  | txc => exact engineStep_of_txc rfl hx
  | txcEnum => exact engineStep_of_txc rfl hx
  | txcUntagged => exact engineStep_of_txc rfl hx
  | txcTaggedLongDl => exact engineStep_of_txc rfl hx
  | txcTaggedLongSd => exact engineStep_of_txc rfl hx
  | txcTagged => exact engineStep_of_txc rfl hx
  | rxf => exact engineStep_of_rxf rfl hx
  | _ => exact engineStep_of_rxf rfl hx

/-- From a state with `Inv` every event ends in `dispatch()`, which by I5 does nothing where it is not run. -/
theorem acts_of_exec (hs : Inv s) (hi : i ≠ .reset) (hx : exec i s = .next t) :
    ∃ u v, EngineMove i s u ∧ Enqueue i u v ∧ SameEngine (dispatch v) t := by
  rcases engineStep_exec hi hx with ⟨htick, h⟩ | ⟨w, ⟨u, v, hm, he, hvw⟩, h⟩
  · refine ⟨s, s, .keep fun h => absurd h htick, .none, ?_⟩
    rwa [dispatch_of_not hs.no_idle_work]
  · exact ⟨u, v, hm, he, hvw.dispatch.trans h⟩

end

end Sys2Proof.Machine

/-! Who writes what (R30, R230): for each event the components it may write, as an update of just those. -/

namespace Sys2Proof.Machine

/-! ## What the shared operations write -/

section

variable (s : State)

theorem dispatch_writes : ∃ st c tx bo, dispatch s = { s with state := st, cnt := c, txslot := tx, busOut := bo } := by
  rcases dispatch_cases s with ⟨_, _, _, h⟩ | ⟨_, h⟩
  · exact ⟨_, _, _, _, h⟩
  · exact ⟨_, _, _, _, h⟩

theorem countDown_writes : ∃ st c rd er fi re tx bo, countDown s = { s with
    state := st, cnt := c, rd := rd, err := er, field := fi, res := re, txslot := tx, busOut := bo } := by
  unfold countDown expire
  split_ifs
  · exact ⟨_, _, _, _, _, _, _, _, rfl⟩
  · cases s.state with
    | idle => exact ⟨_, _, _, _, _, _, _, _, rfl⟩
    | waitForSend => exact ⟨_, _, _, _, _, _, _, _, recover_eq ..⟩
    | waitForAck => exact ⟨_, _, _, _, _, _, _, _, recover_eq ..⟩
  · exact ⟨_, _, _, _, _, _, _, _, rfl⟩

theorem ite_complete_writes (p : Prop) [Decidable p] (ok : Bool) (len : Len) (data : Payload) :
    ∃ st c rd re, (if p then complete ok len data s else s) =
      { s with state := st, cnt := c, rd := rd, res := re } := by
  split_ifs
  · exact ⟨_, _, _, _, complete_eq ok len data s⟩
  · exact ⟨_, _, _, _, rfl⟩

theorem updateField_writes (k : Fin 9) (a : DevNo) (len : Len) (data : Payload) :
    ∃ fi, updateField k a len data s = { s with field := fi } := by
  rcases updateField_cases s k a len data with ⟨_, h⟩ | ⟨_, h⟩
  · exact ⟨_, h⟩
  · exact ⟨_, h⟩

theorem statusFrame_writes (k : Fin 9) (a : DevNo) (len : Len) (data : Payload) : ∃ st c rd fi re,
    statusFrame k a len data s = { s with state := st, cnt := c, rd := rd, field := fi, res := re } := by
  obtain ⟨fi, hfield⟩ := updateField_writes s k a len data
  unfold statusFrame retireByStatus
  rw [hfield]
  obtain ⟨st, c, rd, re, h⟩ := ite_complete_writes { s with field := fi }
    (s.state = .waitForAck ∧ (head s).cls = classOfField s.cfg k) (a == (head s).addr) len data
  exact ⟨st, c, rd, fi, re, h⟩

theorem chainPoll_writes (k : Fin 8) :
    ∃ wr er q, chainPoll k s = { s with wr := wr, err := er, q := q } := by
  rcases chainPoll_cases s k with ⟨_, h⟩ | ⟨_, _, _, _, hp, h⟩ | ⟨_, _, _, _, h⟩
  · exact ⟨_, _, _, h⟩
  · exact ⟨_, _, _, h.trans (push_eq_some hp).2⟩
  · exact ⟨_, _, _, h⟩

theorem rxEnum_writes (a : DevNo) : rxEnum a s = { s with pres := (rxEnum a s).pres } := by
  unfold rxEnum
  split_ifs
  · rfl
  · rfl

/-- The bitmap after a received frame: of the rows only the enumeration reply writes it (R207). -/
def presAfter (kind : RxKind) (a : DevNo) (s : State) : BitVec 64 :=
  match kind with
  | .enumReply => (rxEnum a s).pres
  | _ => s.pres

theorem receivedAction_writes (kind : RxKind) (cls : Cls) (a : DevNo) (len : Len) (data : Payload) :
    ∃ st c rd wr up er fi pr re q, receivedAction kind cls a len data s = { s with
      state := st, cnt := c, rd := rd, wr := wr, updack := up, err := er, field := fi, pres := pr, res := re, q := q }
      ∧ pr = presAfter kind a s := by
  cases kind with
  | status k =>
    change ∃ st c rd wr up er fi pr re q, rxStatus k a len data s = _ ∧ _
    unfold rxStatus
    split_ifs
    · obtain ⟨st, c, rd, fi, re, h⟩ := statusFrame_writes s k.castSucc a len data
      rw [h]
      obtain ⟨wr, er, q, h'⟩ :=
        chainPoll_writes { s with state := st, cnt := c, rd := rd, field := fi, res := re } k
      exact ⟨_, _, _, _, _, _, _, _, _, _, h', rfl⟩
    · exact ⟨_, _, _, _, _, _, _, _, _, _, rfl, rfl⟩
  | fwver =>
    change ∃ st c rd wr up er fi pr re q, rxFwver a len data s = _ ∧ _
    unfold rxFwver
    split_ifs
    · obtain ⟨st, c, rd, fi, re, h⟩ := statusFrame_writes s 8 a len data
      exact ⟨_, _, _, _, _, _, _, _, _, _, h, rfl⟩
    · exact ⟨_, _, _, _, _, _, _, _, _, _, rfl, rfl⟩
  | enumReply =>
    exact ⟨_, _, _, _, _, _, _, _, _, _, rxEnum_writes s a, rfl⟩
  | ack =>
    obtain ⟨st, c, rd, re, h⟩ := ite_complete_writes s (s.state = .waitForAck) false 0 0
    exact ⟨_, _, _, _, _, _, _, _, _, _, h, rfl⟩
  | updack =>
    obtain ⟨st, c, rd, re, h⟩ := ite_complete_writes { s with updack := true } (s.state = .waitForAck) false 0 0
    exact ⟨_, _, _, _, _, _, _, _, _, _, h, rfl⟩
  | other =>
    obtain ⟨st, c, rd, re, h⟩ :=
      ite_complete_writes s (s.state = .waitForAck ∧ (head s).cls = cls ∧ (head s).addr = a) true len data
    exact ⟨_, _, _, _, _, _, _, _, _, _, h, rfl⟩

/-- Bit 0 of `PRES` is hardwired (R43). -/
theorem rxEnum_pres_zero (a : DevNo) : (rxEnum a s).pres.getLsbD 0 = s.pres.getLsbD 0 := by
  rw [rxEnum_eq]
  split_ifs with h
  · have ha : 0 ≠ a.toNat := fun h0 => h.2.2 (BitVec.eq_of_toNat_eq h0.symm)
    simp [ha]
  · rfl

theorem receivedAction_pres (kind : RxKind) (cls : Cls) (a : DevNo) (len : Len) (data : Payload) :
    (receivedAction kind cls a len data s).pres = presAfter kind a s := by
  obtain ⟨st, c, rd, wr, up, er, fi, pr, re, q, h, hpr⟩ := receivedAction_writes s kind cls a len data
  rw [← hpr, h]

theorem receivedAction_pres_zero (kind : RxKind) (cls : Cls) (a : DevNo) (len : Len) (data : Payload) :
    (receivedAction kind cls a len data s).pres.getLsbD 0 = s.pres.getLsbD 0 := by
  rw [receivedAction_pres]
  cases kind with
  | enumReply => exact rxEnum_pres_zero s a
  | _ => rfl

end

/-- `t` is `s` after the end of an operation that enqueues an entry or declines to (R77, R140 to R143). -/
def EnqueueWrites (s t : State) : Prop :=
  ∃ st c wr er q tx bo r, t = { s with
    state := st, cnt := c, wr := wr, err := er, q := q, txslot := tx, busOut := bo, hostOut := s.hostOut ++ [r] }

theorem hostEnqueue_writes (e : QEntry) (s : State) : EnqueueWrites s (hostEnqueue e s) := by
  rcases hostEnqueue_cases s e with ⟨t, hp, h⟩ | ⟨_, h⟩
  · obtain ⟨_, rfl⟩ := push_eq_some hp
    obtain ⟨st, c, tx, bo, h'⟩ := dispatch_writes { s with q := s.q.set s.wr e, wr := (s.wr + 1) % s.cfg.n }
    rw [h, h']
    exact ⟨_, _, _, _, _, _, _, _, rfl⟩
  · exact ⟨_, _, _, _, _, _, _, _, h⟩

theorem engineEnqueue_writes (e : QEntry) (s : State) : EnqueueWrites s (engineEnqueue e s) := by
  rcases engineEnqueue_cases s e with ⟨t, hp, h⟩ | ⟨_, h⟩
  · obtain ⟨_, rfl⟩ := push_eq_some hp
    obtain ⟨st, c, tx, bo, h'⟩ := dispatch_writes { s with q := s.q.set s.wr e, wr := (s.wr + 1) % s.cfg.n }
    rw [h, h']
    exact ⟨_, _, _, _, _, _, _, _, rfl⟩
  · obtain ⟨st, c, tx, bo, h'⟩ := dispatch_writes (raise .queueFull s)
    rw [h, h']
    exact ⟨_, _, _, _, _, _, _, _, rfl⟩

/-! ## What each event writes -/

/-- `t` is `s` but for the components that the event `i` may write. -/
inductive Writes (i : Instr) (s : State) : State → Prop
  | tick (hi : eventOf i = .tick) {st c rd er fi re tx bo} : Writes i s { s with
      state := st, cnt := c, rd := rd, err := er, field := fi, res := re, txslot := tx, busOut := bo }
  | sent (hi : eventOf i = .txc) {st c rd re tx bo} : Writes i s { s with
      state := st, cnt := c, rd := rd, res := re, txslot := tx, busOut := bo }
  | received (hi : eventOf i = .rxf) {st c rd wr up er fi pr re q tx bo}
      (hpr : pr.getLsbD 0 = s.pres.getLsbD 0) : Writes i s { s with
        state := st, cnt := c, rd := rd, wr := wr, updack := up, err := er, field := fi, pres := pr, res := re,
        q := q, txslot := tx, busOut := bo }
  | enq (hi : eventOf i = .enq) {t} (ht : EnqueueWrites s t) : Writes i s t
  | enqr (hi : eventOf i = .enqr) {re t} (ht : EnqueueWrites { s with res := re } t) : Writes i s t
  | setaddr {a} (hi : i = .setaddr a) (ha : a ≠ 0) {t} (ht : EnqueueWrites { s with
      target := a, field := s.field.map fun f => ⟨f.value, false⟩ } t) : Writes i s t
  | enum (hi : i = .enum) {t} (ht : EnqueueWrites { s with pres := 0 } t) : Writes i s t
  | answered (hi : (eventOf i).context = .foreground) {r} : Writes i s (answer r s)
  | refused (hi : eventOf i = .enq ∨ eventOf i = .enqr ∨ eventOf i = .setaddr ∨ eventOf i = .rdstat ∨
      eventOf i = .rdres ∨ eventOf i = .rdreg) : Writes i s (refuseArg s)
  | sweep (hi : eventOf i = .sweep) {b r} : Writes i s (answer r { s with sweepEn := b })
  | takeupd (hi : eventOf i = .takeupd) {b r} : Writes i s (answer r { s with updack := b })
  | clrerr (hi : eventOf i = .clrerr) {er r} : Writes i s (answer r { s with err := er })
  | reset (hi : i = .reset) {t} (ht : exec .reset s = .next t) : Writes i s t

section

variable {i : Instr} {s t : State}

theorem writes_of_rxf (hi : eventOf i = .rxf) (hx : exec i s = .next t) : Writes i s t := by
  obtain ⟨kind, cls, a, len, data, hrow⟩ := exists_receivedRow hi s
  rw [exec_receivedRow] at hrow
  cases hrow.symm.trans hx
  unfold receive
  split_ifs
  · obtain ⟨st, c, tx, bo, h⟩ := dispatch_writes (raise .malformedResponse s)
    rw [h]
    exact .received hi rfl
  · have hpres := receivedAction_pres_zero s kind cls a len data
    obtain ⟨st, c, rd, wr, up, er, fi, pr, re, q, h, _⟩ := receivedAction_writes s kind cls a len data
    obtain ⟨st', c', tx, bo, h'⟩ := dispatch_writes (receivedAction kind cls a len data s)
    rw [h] at hpres
    rw [h', h]
    exact .received hi hpres

theorem writes_txComplete (hi : eventOf i = .txc) {action : State → State}
    (h : ∃ st c rd re, action { s with txslot := ⟨false, s.txslot.frame⟩ } = { s with
      state := st, cnt := c, rd := rd, res := re, txslot := ⟨false, s.txslot.frame⟩ }) :
    Writes i s (txComplete action s) := by
  obtain ⟨st, c, rd, re, h⟩ := h
  unfold txComplete
  split_ifs
  · rw [h]
    obtain ⟨st', c', tx, bo, h'⟩ := dispatch_writes { s with
      state := st, cnt := c, rd := rd, res := re, txslot := ⟨false, s.txslot.frame⟩ }
    rw [h']
    exact .sent hi
  · obtain ⟨st', c', tx, bo, h'⟩ := dispatch_writes s
    rw [h']
    exact .sent hi

theorem writes_of_sentRow {row : Instr} (hi : eventOf i = .txc) (hrow : isSentRow row = true)
    (hx : exec row s = .next t) : Writes i s t := by
  have hretire : ∀ load, ∃ st c rd re, toIdle load (retire false 0 0 { s with txslot := ⟨false, s.txslot.frame⟩ }) =
      { s with state := st, cnt := c, rd := rd, res := re, txslot := ⟨false, s.txslot.frame⟩ } := fun load => by
    rw [retire_eq_slotsAfter]
    exact ⟨_, _, _, _, rfl⟩
  cases row with
  | txcEnum => cases hx; exact writes_txComplete hi (hretire _)
  | txcUntagged => cases hx; exact writes_txComplete hi (hretire _)
  | txcTaggedLongDl => cases hx; exact writes_txComplete hi ⟨_, _, _, _, rfl⟩
  | txcTaggedLongSd => cases hx; exact writes_txComplete hi ⟨_, _, _, _, rfl⟩
  | txcTagged => cases hx; exact writes_txComplete hi ⟨_, _, _, _, rfl⟩
  | _ => cases hrow

theorem writes_of_txc (hi : eventOf i = .txc) (hx : exec i s = .next t) : Writes i s t := by
  by_cases htxc : i = .txc
  · subst htxc
    rcases exec_txc_cases s with ⟨row, hrow, h⟩ | h
    · exact writes_of_sentRow hi hrow (h.symm.trans hx)
    · cases h.symm.trans hx
      obtain ⟨st, c, tx, bo, h'⟩ := dispatch_writes s
      rw [h']
      exact .sent hi
  · exact writes_of_sentRow hi (by simp [isSentRow, hi, htxc]) hx

theorem writes_of_tick (hx : exec .tick s = .next t) : Writes .tick s t := by
  cases hx
  obtain ⟨st, c, rd, er, fi, re, tx, bo, h⟩ := countDown_writes s
  obtain ⟨st', c', tx', bo', h'⟩ := dispatch_writes (countDown s)
  rw [h', h]
  exact .tick rfl

theorem writes_of_enq (cls : Cls) (a : DevNo) (len : Len) (data : Payload)
    (hx : exec (.enq cls a len data) s = .next t) : Writes (.enq cls a len data) s t := by
  by_cases hlen : len.toNat ≤ 8
  · cases (exec_enq_of_le hlen cls a data).symm.trans hx
    exact .enq rfl (hostEnqueue_writes _ s)
  · cases (exec_enq_of_lt s (Nat.not_le.1 hlen) cls a data).symm.trans hx
    exact .refused (.inl rfl)

theorem writes_of_enqr (cls : Cls) (a : DevNo) (len : Len) (data : Payload) (r : SlotIx)
    (hx : exec (.enqr cls a len data r) s = .next t) : Writes (.enqr cls a len data r) s t := by
  cases harg : enqrBadArg len r s with
  | true =>
    cases (exec_enqr_of_badArg s harg cls a data).symm.trans hx
    exact .refused (.inr (.inl rfl))
  | false =>
    cases hroom : isFull s with
    | true =>
      cases (exec_enqr_of_full harg hroom cls a data).symm.trans hx
      exact .enqr (re := s.res) rfl ⟨_, _, _, _, _, _, _, _, rfl⟩
    | false =>
      cases (exec_enqr_of_room s harg hroom cls a data).symm.trans hx
      exact .enqr rfl (hostEnqueue_writes _ (writeSlot r ResSlot.preset s))

theorem writes_of_setaddr (a : DevNo) (hx : exec (.setaddr a) s = .next t) : Writes (.setaddr a) s t := by
  by_cases ha : a = 0
  · subst ha
    cases (exec_setaddr_zero s).symm.trans hx
    exact .refused (by simp [eventOf])
  · cases (exec_setaddr_of_ne_zero ha).symm.trans hx
    rw [invalidateAll_eq]
    exact .setaddr rfl ha (engineEnqueue_writes ..)

theorem AnswersOrRefuses.writes (h : AnswersOrRefuses s i)
    (hi : eventOf i = .rdstat ∨ eventOf i = .rdres ∨ eventOf i = .rdreg) (hx : exec i s = .next t) :
    Writes i s t := by
  rcases h with ⟨r, h⟩ | h
  · cases h.symm.trans hx
    exact .answered (by rcases hi with hi | hi | hi <;> rw [hi] <;> rfl)
  · cases h.symm.trans hx
    exact .refused (.inr (.inr (.inr hi)))

/-- Every event keeps to its writes. -/
theorem writes_of_exec (hx : exec i s = .next t) : Writes i s t := by
  cases i with
  | tick => exact writes_of_tick hx
  | enq cls a len data => exact writes_of_enq cls a len data hx
  | enqr cls a len data r => exact writes_of_enqr cls a len data r hx
  | setaddr a => exact writes_of_setaddr a hx
  | enum => cases hx; exact .enum rfl (engineEnqueue_writes _ { s with pres := 0 })
  | sweep b => cases hx; exact .sweep rfl
  | rdstat k => exact (rdstat_answersOrRefuses s k).writes (.inl rfl) hx
  | rdpres => cases hx; exact .answered rfl
  | rdres r => exact (rdres_answersOrRefuses s r).writes (.inr (.inl rfl)) hx
  | takeupd => cases hx; exact .takeupd rfl
  | rdreg n => exact (rdreg_answersOrRefuses s n).writes (.inr (.inr rfl)) hx
  | clrerr m => cases hx; exact .clrerr rfl
  | reserved14 rest => cases hx
  | reset => exact .reset rfl hx
  | txc => exact writes_of_txc rfl hx
  | txcEnum => exact writes_of_txc rfl hx
  | txcUntagged => exact writes_of_txc rfl hx
  | txcTaggedLongDl => exact writes_of_txc rfl hx
  | txcTaggedLongSd => exact writes_of_txc rfl hx
  | txcTagged => exact writes_of_txc rfl hx
  | rxf => exact writes_of_rxf rfl hx
  | _ => exact writes_of_rxf rfl hx

end

/-- Settles O51: each clause is read off the update that the event's writes are. -/
theorem componentsHaveTheirWriters : Obligations.ComponentsHaveTheirWriters := by
  intro s t i hx
  cases writes_of_exec hx with
  | tick hi => simp [hi]
  | sent hi => simp [hi]
  | received hi => simp [hi]
  | enq hi ht => obtain ⟨_, _, _, _, _, _, _, _, rfl⟩ := ht; simp [hi, Event.context]
  | enqr hi ht => obtain ⟨_, _, _, _, _, _, _, _, rfl⟩ := ht; simp [hi, Event.context]
  | setaddr hi _ ht => obtain ⟨_, _, _, _, _, _, _, _, rfl⟩ := ht; simp [hi, eventOf, Event.context]
  | enum hi ht => obtain ⟨_, _, _, _, _, _, _, _, rfl⟩ := ht; simp [hi, eventOf, Event.context]
  | answered hi => simp [hi]
  | refused hi => rcases hi with hi | hi | hi | hi | hi | hi <;> simp [hi, refuseArg, Event.context]
  | sweep hi => simp [hi, Event.context]
  | takeupd hi => simp [hi, Event.context]
  | clrerr hi => simp [hi, Event.context]
  | reset hi ht =>
    cases ht
    simp [hi, eventOf, scramble, State.resetOf]

end Sys2Proof.Machine

/-! The invariants I1 to I9 (R51): what each move of the engine keeps, and the queue that the ring holds (R45). -/

namespace Sys2Proof.Machine

/-! ## The live entries under a retirement (R172) -/

section

variable {s t : State}

theorem liveEntries_congr (hc : t.cfg = s.cfg) (hr : t.rd = s.rd) (hw : t.wr = s.wr) (hq : t.q = s.q) :
    liveEntries t = liveEntries s := by
  simp [liveEntries, count_congr hr hw hc, readEntry, hc, hr, hq]

theorem SameEngine.liveEntries_eq (h : SameEngine s t) : liveEntries t = liveEntries s :=
  liveEntries_congr h.cfg h.rd h.wr h.q

theorem wr_eq_rd_iff_count (hs : RingOk s) : s.wr = s.rd ↔ count s = 0 := by
  have h := rd_add_mod_eq_wr_iff hs (Nat.zero_lt_of_lt hs.rd_lt)
  rw [Nat.add_zero, Nat.mod_eq_of_lt hs.rd_lt] at h
  rw [eq_comm, h, eq_comm]

/-- A full ring holds one entry less than it has elements (R76). -/
theorem isFull_iff_count (hs : RingOk s) : isFull s = true ↔ count s = s.cfg.n - 1 := by
  have hlt := count_lt hs
  constructor
  · intro hfull
    have hmod : s.rd + (count s + 1) ≡ s.rd + 0 [MOD s.cfg.n] := by
      rw [Nat.ModEq, rd_add_count_succ_mod hs]
      exact ((isFull_eq_true s).1 hfull).trans (Nat.mod_eq_of_lt hs.rd_lt).symm
    have hdvd : s.cfg.n ∣ count s + 1 := (Nat.modEq_zero_iff_dvd).1 (Nat.ModEq.add_left_cancel' s.rd hmod)
    have hle := Nat.le_of_dvd (Nat.succ_pos _) hdvd
    omega
  · intro hcount
    by_contra hroom
    have := count_succ_lt_of_not_full hs (Bool.eq_false_iff.2 hroom)
    omega

theorem liveEntries_length (s : State) : (liveEntries s).length = count s := by
  simp [liveEntries]

/-- `RD` one further takes the head off the front. -/
theorem liveEntries_eq_head_cons (hs : RingOk s) (hne : s.wr ≠ s.rd) (hc : t.cfg = s.cfg)
    (hr : t.rd = (s.rd + 1) % s.cfg.n) (hw : t.wr = s.wr) (hq : t.q = s.q) :
    liveEntries s = head s :: liveEntries t := by
  have hpos : 0 < s.cfg.n := Nat.zero_lt_of_lt hs.rd_lt
  have ht : RingOk t :=
    ⟨hc ▸ hs.size, by rw [hr, hc]; exact Nat.mod_lt _ hpos, by rw [hw, hc]; exact hs.wr_lt, by
      rw [hq, hc]; exact hs.ring_wf⟩
  have hstep : ∀ j, (t.rd + j) % t.cfg.n = (s.rd + (j + 1)) % s.cfg.n := fun j => by
    rw [hr, hc, Nat.mod_add_mod, Nat.add_assoc, Nat.add_comm 1 j]
  obtain ⟨k, hk⟩ := Nat.exists_eq_succ_of_ne_zero ((wr_eq_rd_iff_count hs).not.1 hne)
  have hcount : k = count t := by
    have hlt : k < t.cfg.n := by
      have := count_lt hs
      rw [hc]
      omega
    rw [← rd_add_mod_eq_wr_iff ht hlt, hstep, hw, ← Nat.succ_eq_add_one, ← hk]
    exact rd_add_count_mod hs
  have hread : ∀ a, readEntry t a = readEntry s a := fun a => by rw [readEntry, readEntry, hq]
  unfold liveEntries
  rw [hk, List.range_succ_eq_map, List.map_cons, List.map_map, ← hcount]
  refine congrArg₂ List.cons ?_ (List.map_congr_left fun j _ => ?_)
  · rw [Nat.add_zero, Nat.mod_eq_of_lt hs.rd_lt, head]
  · rw [Function.comp_apply, hstep, hread]

theorem head?_liveEntries (hs : RingOk s) (hne : s.wr ≠ s.rd) : (liveEntries s).head? = some (head s) := by
  rw [liveEntries_eq_head_cons (t := advanceRd s) hs hne rfl rfl rfl rfl, List.head?_cons]

end

/-- Settles O17: `count()` is the one way from `RD` to `WR` inside the ring, 0 when they meet and `N - 1` when one more
entry would make them meet. -/
theorem ringPredicates : Obligations.RingPredicates := by
  intro s hs
  refine ⟨?empty, isFull_iff_count hs, Nat.le_sub_one_of_lt (count_lt hs), liveEntries_length s, ?head⟩
  case empty => rw [isEmpty_eq_true, wr_eq_rd_iff_count hs]
  case head => exact fun hne => head?_liveEntries hs ((isEmpty_eq_false s).1 hne)

/-- Settles O19: the slot the head names is written, and `RD` steps over the head. -/
theorem retireDropsTheHead : Obligations.RetireDropsTheHead := by
  intro s ok len data hs hne
  refine ⟨?_, retire_eq_slotsAfter s ok len data⟩
  rw [liveEntries_eq_head_cons (t := retire ok len data s) hs hne (by simp) (by simp) (by simp) (by simp),
    List.tail_cons]

end Sys2Proof.Machine

namespace Sys2Proof.Machine

/-! ## The queued entries and the slots they name (I7, R121, R122, R141) -/

/-- What `Inv` says of the live entries and the result slots. -/
structure EntriesOk (live : List QEntry) (res : Vector ResSlot 4) (slots : Nat) : Prop where
  pending_of_live : ∀ e ∈ live, e.rv = true → res[e.rslot.toFin].st = .pending
  live_slots_distinct : live.Pairwise fun e f => e.rv = true → f.rv = true → e.rslot ≠ f.rslot
  live_of_pending : ∀ r : SlotIx, res[r.toFin].st = .pending → ∃ e ∈ live, e.rv = true ∧ e.rslot = r
  live_len : ∀ e ∈ live, e.len.toNat ≤ 8
  live_rslot : ∀ e ∈ live, e.rv = true → e.rslot.toNat < slots

section

variable {live : List QEntry} {res : Vector ResSlot 4} {slots : Nat} {e : QEntry}

theorem getElem_set_slot (res : Vector ResSlot 4) (r r' : SlotIx) (v : ResSlot) :
    (res.set r.toFin v)[r'.toFin] = if r = r' then v else res[r'.toFin] := by
  by_cases h : r = r'
  · subst h
    simp
  · have hne : r.toNat ≠ r'.toNat := fun hv => h (BitVec.eq_of_toNat_eq hv)
    simp [h, hne]

theorem getElem_slotsAfter (e : QEntry) (v : ResSlot) (res : Vector ResSlot 4) (r : SlotIx) :
    (slotsAfter e v res)[r.toFin] = if e.rv = true ∧ e.rslot = r then v else res[r.toFin] := by
  unfold slotsAfter
  cases hrv : e.rv with
  | false => simp
  | true => simpa using getElem_set_slot res e.rslot r v

/-- Retirement frees the slot of the head, which no entry behind it names (I7). -/
theorem EntriesOk.retire {v : ResSlot} (h : EntriesOk (e :: live) res slots) (hv : v.st ≠ .pending) :
    EntriesOk live (slotsAfter e v res) slots := by
  obtain ⟨hpending, hdistinct, hlive, hlen, hslot⟩ := h
  obtain ⟨hhead, htail⟩ := List.pairwise_cons.1 hdistinct
  refine ⟨fun f hf hrv => ?_, htail, fun r hr => ?_, fun f hf => hlen f (.tail _ hf),
    fun f hf => hslot f (.tail _ hf)⟩
  · rw [getElem_slotsAfter, if_neg fun hsame => hhead f hf hsame.1 hrv hsame.2]
    exact hpending f (.tail _ hf) hrv
  · rw [getElem_slotsAfter] at hr
    split_ifs at hr with hsame
    · exact absurd hr hv
    · obtain ⟨f, hf, hrv, hname⟩ := hlive r hr
      rcases List.mem_cons.1 hf with rfl | hf
      · exact absurd ⟨hrv, hname⟩ hsame
      · exact ⟨f, hf, hrv, hname⟩

/-- An entry without a result reference binds no slot. -/
theorem EntriesOk.plain (h : EntriesOk live res slots) (hrv : e.rv = false) (hlen : e.len.toNat ≤ 8) :
    EntriesOk (live ++ [e]) res slots := by
  have hno : ∀ f ∈ live ++ [e], f.rv = true → f ∈ live := fun f hf hfv => by
    rcases List.mem_append.1 hf with hf | hf
    · exact hf
    · rw [List.mem_singleton.1 hf, hrv] at hfv
      cases hfv
  refine ⟨fun f hf hfv => h.pending_of_live f (hno f hf hfv) hfv, List.pairwise_append.2 ⟨h.live_slots_distinct,
    List.pairwise_singleton .., fun f _ g hg _ hgv => ?_⟩, fun r hr => ?_, fun f hf => ?_,
    fun f hf hfv => h.live_rslot f (hno f hf hfv) hfv⟩
  · rw [List.mem_singleton.1 hg, hrv] at hgv
    cases hgv
  · obtain ⟨f, hf, hname⟩ := h.live_of_pending r hr
    exact ⟨f, List.mem_append_left _ hf, hname⟩
  · rcases List.mem_append.1 hf with hf | hf
    · exact h.live_len f hf
    · exact List.mem_singleton.1 hf ▸ hlen

/-- An ENQR binds a slot that no entry names, because it is not PENDING (R141). -/
theorem EntriesOk.referenced (h : EntriesOk live res slots) (hrv : e.rv = true) (hlen : e.len.toNat ≤ 8)
    (hslot : e.rslot.toNat < slots) (hfree : res[e.rslot.toFin].st ≠ .pending) :
    EntriesOk (live ++ [e]) (res.set e.rslot.toFin ResSlot.preset) slots := by
  have hnew : ∀ f ∈ live, f.rv = true → f.rslot ≠ e.rslot := fun f hf hfv hsame =>
    hfree (by simpa only [hsame] using h.pending_of_live f hf hfv)
  refine ⟨fun f hf hfv => ?_, List.pairwise_append.2 ⟨h.live_slots_distinct, List.pairwise_singleton ..,
    fun f hf g hg hfv _ => ?_⟩, fun r hr => ?_, fun f hf => ?_, fun f hf hfv => ?_⟩
  · rw [getElem_set_slot]
    split_ifs with hsame
    · rfl
    · rcases List.mem_append.1 hf with hf | hf
      · exact h.pending_of_live f hf hfv
      · exact absurd (List.mem_singleton.1 hf ▸ rfl) hsame
  · exact List.mem_singleton.1 hg ▸ hnew f hf hfv
  · rw [getElem_set_slot] at hr
    split_ifs at hr with hsame
    · exact ⟨e, by simp, hrv, hsame⟩
    · obtain ⟨f, hf, hname⟩ := h.live_of_pending r hr
      exact ⟨f, List.mem_append_left _ hf, hname⟩
  · rcases List.mem_append.1 hf with hf | hf
    · exact h.live_len f hf
    · exact List.mem_singleton.1 hf ▸ hlen
  · rcases List.mem_append.1 hf with hf | hf
    · exact h.live_rslot f hf hfv
    · exact List.mem_singleton.1 hf ▸ hslot

end

/-! ## The engine between two `dispatch()`s -/

/-- `Inv` on the engine's own components, but for I5, which only `dispatch()` brings about. -/
structure EngineOk (s : State) : Prop where
  config : s.cfg.Valid
  ring : RingOk s
  busy_nonempty : s.state ≠ .idle → s.wr ≠ s.rd
  slot_iff : s.txslot.v = true ↔ s.state = .waitForSend
  busy_counts : s.state ≠ .idle → 1 ≤ s.cnt
  entries : EntriesOk (liveEntries s) s.res s.cfg.r
  slot_frame : s.txslot.v = true → s.txslot.frame = frameOf (head s)
  cnt_send : s.state = .waitForSend → s.cnt ≤ s.cfg.tSend
  cnt_ack : s.state = .waitForAck → s.cnt ≤ s.cfg.tUpdate
  cnt_idle : s.state = .idle → s.cnt ≤ s.cfg.tSettle

theorem inv_iff (s : State) : Inv s ↔
    EngineOk s ∧ ¬ (s.state = .idle ∧ s.wr ≠ s.rd ∧ s.cnt = 0) ∧ s.pres.getLsbD 0 = false ∧ s.target ≠ 0 := by
  constructor
  · intro h
    exact ⟨⟨h.config, h.ring, h.busy_nonempty, h.slot_iff, h.busy_counts, ⟨h.pending_of_live, h.live_slots_distinct,
      h.live_of_pending, h.live_len, h.live_rslot⟩, h.slot_frame, h.cnt_send, h.cnt_ack, h.cnt_idle⟩,
      h.no_idle_work, h.pres_zero, h.target_ne⟩
  · rintro ⟨h, hwork, hpres, htarget⟩
    exact ⟨h.config, h.ring, h.busy_nonempty, h.slot_iff, h.busy_counts, hwork, h.entries.pending_of_live,
      h.entries.live_slots_distinct, h.entries.live_of_pending, hpres, htarget, h.entries.live_len,
      h.entries.live_rslot, h.slot_frame, h.cnt_send, h.cnt_ack, h.cnt_idle⟩

theorem Inv.engineOk {s : State} (h : Inv s) : EngineOk s := ((inv_iff s).1 h).1

section

variable {i : Instr} {s t u : State}

theorem RingOk.congr (h : RingOk s) (hc : t.cfg = s.cfg) (hr : t.rd = s.rd) (hw : t.wr = s.wr) (hq : t.q = s.q) :
    RingOk t := by
  obtain ⟨hsize, hrd, hwr, hwf⟩ := h
  constructor <;> simpa only [hc, hr, hw, hq]

theorem SameEngine.engineOk (hs : EngineOk s) (h : SameEngine s t) : EngineOk t := by
  obtain ⟨hconfig, hring, hne, hslot, hcnt, hentries, hframe, hsend, hack, hidle⟩ := hs
  have hring' := hring.congr h.cfg h.rd h.wr h.q
  constructor <;> simpa only [h.cfg, h.state, h.cnt, h.rd, h.wr, h.res, h.txslot, h.head_eq, h.liveEntries_eq]

theorem EngineOk.pos_of_valid {c : Config} (hc : c.Valid) :
    1 ≤ c.tSend ∧ 1 ≤ c.tAck ∧ 1 ≤ c.tUpdate ∧ c.tAck ≤ c.tUpdate := by
  obtain ⟨_, hsend, hack, hlt, _⟩ := hc
  exact ⟨hsend, hack, by omega, hlt.le⟩

theorem ringOk_advanceRd (hs : RingOk s) : RingOk (advanceRd s) :=
  ⟨hs.size, Nat.mod_lt _ (Nat.zero_lt_of_lt hs.rd_lt), hs.wr_lt, hs.ring_wf⟩

/-- Every move keeps `EngineOk`: the countdown stays positive while an entry is in flight (I4), and what a retirement
takes off the front is the entry whose slot it writes (I7). -/
theorem EngineMove.engineOk (hs : EngineOk s) (h : EngineMove i s u) : EngineOk u := by
  obtain ⟨hsend, hack, hupdate, hle⟩ := EngineOk.pos_of_valid hs.config
  cases h with
  | keep => exact hs
  | countDown _ hrun =>
    refine { hs with
      ring := hs.ring.congr rfl rfl rfl rfl
      busy_counts := fun hbusy => ?_
      cnt_send := fun h => (Nat.sub_le ..).trans (hs.cnt_send h)
      cnt_ack := fun h => (Nat.sub_le ..).trans (hs.cnt_ack h)
      cnt_idle := fun h => (Nat.sub_le ..).trans (hs.cnt_idle h) }
    rcases hrun with hrun | ⟨hidle, _⟩
    · exact Nat.le_sub_one_of_lt hrun
    · exact absurd hidle hbusy
  | await _ hstate load hload =>
    have hbusy : s.state ≠ .idle := by simp [hstate]
    exact {
      config := hs.config
      ring := hs.ring.congr rfl rfl rfl rfl
      busy_nonempty := fun _ => hs.busy_nonempty hbusy
      slot_iff := by simp
      busy_counts := fun _ => by rcases hload with rfl | rfl <;> assumption
      entries := hs.entries
      slot_frame := nofun
      cnt_send := nofun
      cnt_ack := fun _ => by rcases hload with rfl | rfl <;> simp [hle]
      cnt_idle := nofun }
  | retire _ _ hbusy v hv load hload busy hslot =>
    have hne : s.wr ≠ s.rd := hs.busy_nonempty hbusy
    have hnot : busy ≠ true := fun hb => by
      obtain ⟨hack, hv⟩ := hslot hb
      rw [hs.slot_iff.1 hv] at hack
      cases hack
    have hdone : v.st ≠ .pending := by rcases hv with hv | rfl <;> simp [*]
    have hentries := hs.entries
    rw [liveEntries_eq_head_cons (t := advanceRd s) hs.ring hne rfl rfl rfl rfl] at hentries
    exact {
      config := hs.config
      ring := (ringOk_advanceRd hs.ring).congr rfl rfl rfl rfl
      busy_nonempty := fun h => absurd rfl h
      slot_iff := by simp [hnot]
      busy_counts := fun h => absurd rfl h
      entries := hentries.retire hdone
      slot_frame := fun h => absurd h hnot
      cnt_send := nofun
      cnt_ack := nofun
      cnt_idle := fun _ => by rcases hload with rfl | rfl <;> simp }

/-- A push, over slots that may have been preset for it, keeps whatever it does not concern; the entries are the
caller's. -/
theorem EngineOk.of_push {e : QEntry} {re : Vector ResSlot 4} (hs : EngineOk s)
    (hp : push e { s with res := re } = some t) (he : EntriesOk (liveEntries s ++ [e]) re s.cfg.r) : EngineOk t := by
  have hold : RingOk { s with res := re } := hs.ring.congr rfl rfl rfl rfl
  have hring := ringOk_push hold hp
  have hlive := liveEntries_push hold hp
  have hcount := count_push hold hp
  have hhead : s.wr ≠ s.rd → head t = head s := fun hne => by
    have hrd : t.rd = s.rd := by rw [(push_eq_some hp).2]
    rw [head, hrd, readEntry_push_ne hp hne.symm]
    rfl
  have hne : t.wr ≠ t.rd := (wr_eq_rd_iff_count hring).not.2 (by omega)
  obtain ⟨_, rfl⟩ := push_eq_some hp
  refine { hs with
    ring := hring
    busy_nonempty := fun _ => hne
    entries := hlive.symm ▸ he
    slot_frame := fun hv => ?_ }
  have hbusy : s.state ≠ .idle := by simp [hs.slot_iff.1 hv]
  rw [hhead (hs.busy_nonempty hbusy)]
  exact hs.slot_frame hv

theorem Enqueue.engineOk (hs : EngineOk s) (h : Enqueue i s t) : EngineOk t := by
  cases h with
  | none => exact hs
  | plain e hlen hrv hp => exact hs.of_push (re := s.res) hp (hs.entries.plain hrv hlen)
  | referenced cls a len data r _ hlen hr hfree hp =>
    exact hs.of_push hp (hs.entries.referenced (e := ⟨a, cls, len, data, true, r⟩) rfl hlen hr hfree)

/-- `dispatch()` keeps `EngineOk` and brings about I5. -/
theorem EngineOk.dispatch (hs : EngineOk s) : EngineOk (dispatch s) ∧
    ¬ ((dispatch s).state = .idle ∧ (dispatch s).wr ≠ (dispatch s).rd ∧ (dispatch s).cnt = 0) := by
  rcases dispatch_cases s with ⟨_, hne, _, heq⟩ | ⟨hno, heq⟩
  · obtain ⟨hsend, _⟩ := EngineOk.pos_of_valid hs.config
    rw [heq]
    refine ⟨?_, nofun⟩
    exact {
      config := hs.config
      ring := hs.ring.congr rfl rfl rfl rfl
      busy_nonempty := fun _ => hne
      slot_iff := by simp
      busy_counts := fun _ => hsend
      entries := hs.entries
      slot_frame := fun _ => rfl
      cnt_send := fun _ => le_refl _
      cnt_ack := nofun
      cnt_idle := nofun }
  · rw [heq]
    exact ⟨hs, hno⟩

end

end Sys2Proof.Machine

namespace Sys2Proof.Machine

/-! ## Reset (R52, R151) -/

section

variable {s t : State}

theorem resetTable_resetOf (c : Config) : ResetTable (State.resetOf c) where
  state := rfl
  cnt := rfl
  rd := rfl
  wr := rfl
  target := rfl
  sweepEn := rfl
  updack := rfl
  err := rfl
  field k := by simp [State.resetOf]
  pres := rfl
  res r := by simp [State.resetOf, readSlot, ResSlot.reset]
  txslot_v := rfl

/-- What RESET puts in the place of the free values, and what it keeps, has no row in the table. -/
theorem resetTable_of_exec (hx : exec .reset s = .next t) : ResetTable t := by
  obtain ⟨h1, h2, h3, h4, h5, h6, h7, h8, h9, h10, h11, _⟩ := resetTable_resetOf s.cfg
  cases hx
  exact ⟨h1, h2, h3, h4, h5, h6, h7, h8, h9, h10, h11, rfl⟩

/-- A state of the table over a ring of `N` elements has the invariants: no entry is live and no slot is PENDING. -/
theorem inv_of_resetTable (hc : s.cfg.Valid) (hq : Memory.wf s.cfg.n s.q) (h : ResetTable s) : Inv s := by
  obtain ⟨hstate, hcnt, hrd, hwr, htarget, _, _, _, _, hpres, hres, hslot⟩ := h
  have hn : 2 ≤ s.cfg.n := hc.1
  have hring : RingOk s := ⟨hn, by omega, by omega, hq⟩
  have hlive : liveEntries s = [] := by
    rw [← List.length_eq_zero_iff, liveEntries_length, ← wr_eq_rd_iff_count hring, hwr, hrd]
  have hentries : EntriesOk (liveEntries s) s.res s.cfg.r := by
    rw [hlive]
    refine ⟨nofun, .nil, fun r hr => ?_, nofun, nofun⟩
    have hfree := congrArg ResSlot.st (hres r)
    rw [readSlot, hr] at hfree
    cases hfree
  have htr : s.cfg.targetReset ≠ 0 := by
    obtain ⟨_, _, _, _, _, _, _, _, htr, _⟩ := hc
    exact htr
  refine (inv_iff s).2 ⟨⟨hc, hring, ?_, ?_, ?_, hentries, ?_, ?_, ?_, ?_⟩, ?_, ?_, ?_⟩
  case refine_10 => exact htarget ▸ htr
  all_goals simp [hstate, hcnt, hrd, hwr, hslot, hpres]

end

/-- Settles O14: RESET starts from the state of hardware reset and overwrites only what the table leaves open. -/
theorem resetTableHolds : Obligations.ResetTableHolds :=
  ⟨resetTable_resetOf, fun _ => ⟨_, rfl, resetTable_of_exec rfl, rfl, rfl, rfl, rfl⟩⟩

/-- The spec's reference parameters meet the constraints (R10, R112 to R114). -/
theorem configReference_valid : Config.reference.Valid := by
  have htagged : ∀ cls ∈ Config.reference.clsStatus.toList ++ Config.reference.clsFwver :: Config.reference.updLong,
      Cls.Tagged cls := by
    simp [Config.reference]
  exact ⟨by decide, by decide, by decide, by decide, by decide, by decide, by decide, by decide, by decide, by decide,
    htagged, by decide⟩

/-- Settles O15: the table of R52 with an empty ring has every invariant. -/
theorem invariantAtReset : Obligations.InvariantAtReset := by
  have hreset : ∀ c : Config, c.Valid → Inv (State.resetOf c) := fun c hc =>
    inv_of_resetTable hc (resetOf_ring_wf c) (resetTable_resetOf c)
  exact ⟨hreset, configReference_valid, hreset _ configReference_valid⟩

/-! ## Every event keeps the invariants -/

section

variable {i : Instr} {s t : State}

/-- I8: only ENUM and RESET clear the bitmap, and an enumeration reply never sets bit 0 (R43). -/
theorem pres_zero_of_exec (hx : exec i s = .next t) (hs : s.pres.getLsbD 0 = false) : t.pres.getLsbD 0 = false := by
  cases writes_of_exec hx with
  | received _ hpr => exact hpr.trans hs
  | enq _ ht => obtain ⟨_, _, _, _, _, _, _, _, rfl⟩ := ht; exact hs
  | enqr _ ht => obtain ⟨_, _, _, _, _, _, _, _, rfl⟩ := ht; exact hs
  | setaddr _ _ ht => obtain ⟨_, _, _, _, _, _, _, _, rfl⟩ := ht; exact hs
  | enum _ ht => obtain ⟨_, _, _, _, _, _, _, _, rfl⟩ := ht; exact BitVec.getLsbD_zero
  | reset _ ht => cases ht; exact BitVec.getLsbD_zero
  | _ => exact hs

/-- I9: SETADDR takes no address 0, and `TARGET_RESET` is none (R10, R142). -/
theorem target_ne_of_exec (hc : s.cfg.Valid) (hx : exec i s = .next t) (hs : s.target ≠ 0) : t.target ≠ 0 := by
  cases writes_of_exec hx with
  | enq _ ht => obtain ⟨_, _, _, _, _, _, _, _, rfl⟩ := ht; exact hs
  | enqr _ ht => obtain ⟨_, _, _, _, _, _, _, _, rfl⟩ := ht; exact hs
  | setaddr _ ha ht => obtain ⟨_, _, _, _, _, _, _, _, rfl⟩ := ht; exact ha
  | enum _ ht => obtain ⟨_, _, _, _, _, _, _, _, rfl⟩ := ht; exact hs
  | reset _ ht =>
    obtain ⟨_, _, _, _, _, _, _, _, htarget, _⟩ := hc
    cases ht
    exact htarget
  | _ => exact hs

theorem inv_of_reset (hs : Inv s) (hx : exec .reset s = .next t) : Inv t := by
  refine inv_of_resetTable ?_ ?_ (resetTable_of_exec hx)
  · cases hx
    exact hs.config
  · cases hx
    exact scramble_ring_wf _ _

theorem inv_of_exec (hs : Inv s) (hx : exec i s = .next t) : Inv t := by
  by_cases hi : i = .reset
  · subst hi
    exact inv_of_reset hs hx
  · obtain ⟨u, v, hm, he, h⟩ := acts_of_exec hs hi hx
    obtain ⟨hv, hwork⟩ := (he.engineOk (hm.engineOk hs.engineOk)).dispatch
    refine (inv_iff t).2 ⟨h.engineOk hv, ?_, pres_zero_of_exec hx hs.pres_zero,
      target_ne_of_exec hs.config hx hs.target_ne⟩
    rwa [h.state, h.wr, h.rd, h.cnt]

end

/-! ## The step (R52, R78, R124) -/

section

variable {s t : State}

theorem fetch_frame {w : EventWord} (h : fetch s = some (w, t)) : t = { s with input := t.input } := by
  unfold fetch at h
  split at h
  · cases h
  · cases h
    rfl

theorem step_of_fetch_none (h : fetch s = none) : step s = .next s := by
  simp only [step, h]

theorem step_of_decoded {w : EventWord} {i : Instr} (h : fetch s = some (w, t)) (hd : decode w = .ok i) :
    step s = exec i t := by
  simp only [step, h, hd]

theorem step_of_rejected {w : EventWord} {why : Reject} (h : fetch s = some (w, t)) (hd : decode w = .error why) :
    step s = .refused (.reservedWord why) := by
  simp only [step, h, hd]

theorem inv_input (hs : Inv s) (input : List (List EventWord)) : Inv { s with input := input } := by
  have hsame : SameEngine s { s with input := input } := {}
  exact (inv_iff _).2 ⟨hsame.engineOk hs.engineOk, hs.no_idle_work, hs.pres_zero, hs.target_ne⟩

end

/-- Settles O10: the three answers of `fetch` and `decode`, one after the other. -/
theorem stepRunsDecodedInstruction : Obligations.StepRunsDecodedInstruction := fun _ =>
  ⟨step_of_fetch_none, fun _ _ h => ⟨fetch_frame h, fun _ => step_of_decoded h, fun _ => step_of_rejected h⟩⟩

/-- Settles O16: fetching touches no invariant, and every event is a move, an enqueue and `dispatch()`, each of which
keeps them. -/
theorem stepKeepsInvariant : Obligations.StepKeepsInvariant := by
  intro s t hs hstep
  cases hf : fetch s with
  | none =>
    cases (step_of_fetch_none hf).symm.trans hstep
    exact hs
  | some p =>
    obtain ⟨w, s'⟩ := p
    have hs' : Inv s' := by
      rw [fetch_frame hf]
      exact inv_input hs _
    cases hd : decode w with
    | ok i => exact inv_of_exec hs' ((step_of_decoded hf hd).symm.trans hstep)
    | error why => cases (step_of_rejected hf hd).symm.trans hstep

/-! ## The queue across an event (R78, R81, R189) -/

section

variable {i : Instr} {s t u : State}

theorem EngineMove.queue (hs : EngineOk s) (h : EngineMove i s u) : ∃ k ≤ 1, (k = 1 → s.state ≠ .idle) ∧
    liveEntries u = (liveEntries s).drop k ∧ u.rd = (s.rd + k) % s.cfg.n ∧ u.wr = s.wr ∧ u.q = s.q ∧
    u.cfg = s.cfg := by
  have hrd : s.rd = (s.rd + 0) % s.cfg.n := (Nat.mod_eq_of_lt hs.ring.rd_lt).symm
  cases h with
  | keep => exact ⟨0, by omega, nofun, rfl, hrd, rfl, rfl, rfl⟩
  | countDown => exact ⟨0, by omega, nofun, rfl, hrd, rfl, rfl, rfl⟩
  | await => exact ⟨0, by omega, nofun, rfl, hrd, rfl, rfl, rfl⟩
  | retire _ _ hbusy =>
    refine ⟨1, le_refl _, fun _ => hbusy, ?_, rfl, rfl, rfl, rfl⟩
    rw [liveEntries_eq_head_cons (t := advanceRd s) hs.ring (hs.busy_nonempty hbusy) rfl rfl rfl rfl]
    rfl

/-- A push over slots that may have been preset for it. -/
theorem queue_of_push {e : QEntry} {re : Vector ResSlot 4} (hs : RingOk s)
    (hp : push e { s with res := re } = some t) : liveEntries t = liveEntries s ++ [e] ∧ t.rd = s.rd ∧
      t.wr = (s.wr + 1) % s.cfg.n ∧ ∀ a, a ≠ s.wr → readEntry t a = readEntry s a := by
  have hold : RingOk { s with res := re } := hs.congr rfl rfl rfl rfl
  have hlive := liveEntries_push hold hp
  have hread : ∀ a, a ≠ s.wr → readEntry t a = readEntry s a := fun a =>
    readEntry_push_ne (s := { s with res := re }) hp
  obtain ⟨_, rfl⟩ := push_eq_some hp
  exact ⟨hlive, rfl, rfl, hread⟩

theorem Enqueue.queue (hs : RingOk s) (h : Enqueue i s t) : ∃ new : List QEntry, new.length ≤ 1 ∧
    liveEntries t = liveEntries s ++ new ∧ t.rd = s.rd ∧ t.wr = (s.wr + new.length) % s.cfg.n ∧
    ∀ a, a ≠ s.wr → readEntry t a = readEntry s a := by
  cases h with
  | none =>
    exact ⟨[], by simp, (List.append_nil _).symm, rfl, (Nat.mod_eq_of_lt hs.wr_lt).symm, fun _ _ => rfl⟩
  | plain e _ _ hp => exact ⟨[e], le_refl _, queue_of_push (re := s.res) hs hp⟩
  | referenced _ _ _ _ _ _ _ _ _ hp => exact ⟨[_], le_refl _, queue_of_push hs hp⟩

end

/-- Settles O20: a retirement drops the head, a push appends at `WR`, and nothing else touches the ring. -/
theorem queueIsFirstInFirstOut : Obligations.QueueIsFirstInFirstOut := by
  intro s t i hs hi hx
  obtain ⟨u, v, hm, he, h⟩ := acts_of_exec hs hi hx
  obtain ⟨k, hk, hbusy, hdrop, hrd, hwr, hq, hcfg⟩ := hm.queue hs.engineOk
  obtain ⟨new, hnew, happend, hrd', hwr', hread⟩ := he.queue (hm.engineOk hs.engineOk).ring
  have hlive : liveEntries t = liveEntries v := h.liveEntries_eq.trans
    (liveEntries_congr (dispatch_cfg v) (dispatch_rd v) (dispatch_wr v) (dispatch_q v))
  refine ⟨k, new, hk, hnew, hbusy, ?_, ?_, ?_, fun a ha => ?_⟩
  · rw [hlive, happend, hdrop]
  · rw [h.rd, dispatch_rd, hrd', hrd]
  · rw [h.wr, dispatch_wr, hwr', hwr, hcfg]
  · calc readEntry t a = readEntry v a := by rw [readEntry, readEntry, h.q, dispatch_q]
      _ = readEntry u a := hread a (hwr ▸ ha)
      _ = readEntry s a := by rw [readEntry, readEntry, hq]

end Sys2Proof.Machine

/-! Outputs to the bus, result slots and the host's reach (R44, R80, R152, R188, R251), read off the engine side of an
event. -/

namespace Sys2Proof.Machine

section

variable {i : Instr} {s t u v : State}

/-! ## What the moves and the enqueues leave alone -/

theorem Enqueue.writes (h : Enqueue i s t) : ∃ wr re q, t = { s with wr := wr, res := re, q := q } := by
  cases h with
  | none => exact ⟨_, _, _, rfl⟩
  | plain e _ _ hp => exact ⟨_, _, _, (push_eq_some hp).2⟩
  | referenced _ _ _ _ _ _ _ _ _ hp => exact ⟨_, _, _, (push_eq_some hp).2⟩

theorem EngineMove.cfg_eq (h : EngineMove i s u) : u.cfg = s.cfg := by
  cases h <;> rfl

/-- Host operations enqueue, and do nothing else to the engine (R152). -/
theorem EngineMove.eq_of_foreground (h : EngineMove i s u) (hi : (eventOf i).context = .foreground) : u = s := by
  cases h with
  | keep => rfl
  | countDown htick =>
    subst htick
    cases hi
  | await htxc =>
    rw [htxc] at hi
    cases hi
  | retire hint =>
    rw [hint] at hi
    cases hi

/-- An engine that is Idle after the move was so before it, or has retired its entry. -/
theorem EngineMove.idle_cases (h : EngineMove i s u) (hu : u.state = .idle) :
    s.state = .idle ∨ u.rd = (s.rd + 1) % s.cfg.n := by
  cases h with
  | keep => exact .inl hu
  | countDown => exact .inl hu
  | await => cases hu
  | retire => exact .inr rfl

/-! ## The outputs (R188, R251) -/

/-- Only the expiry of the countdown of a launch aborts (R177). -/
theorem EngineMove.busOut_eq (h : EngineMove i s u) : u.busOut = s.busOut ++ abortOf i s := by
  have hno : ¬ (i = .tick ∧ s.state = .waitForSend ∧ s.cnt = 1) → s.busOut = s.busOut ++ abortOf i s := fun h => by
    rw [abortOf, if_neg h, List.append_nil]
  cases h with
  | keep htick => exact hno fun ⟨hi, _, hc⟩ => by simp [htick hi] at hc
  | countDown _ hrun =>
    refine hno fun ⟨_, hs, hc⟩ => ?_
    rcases hrun with hrun | ⟨hidle, _⟩
    · omega
    · simp [hs] at hidle
  | await htxc => exact hno fun ⟨hi, _⟩ => by simp [hi, eventOf] at htxc
  | retire => rfl

theorem txAbort_mem_abortOf : BusOut.txAbort ∈ abortOf i s ↔ i = .tick ∧ s.state = .waitForSend ∧ s.cnt = 1 := by
  unfold abortOf
  split_ifs with h <;> simp [h]

theorem txStart_not_mem_abortOf (f : Frame) : BusOut.txStart f ∉ abortOf i s := by
  unfold abortOf
  split_ifs <;> simp

theorem abortOf_cases (i : Instr) (s : State) : abortOf i s = [] ∨ abortOf i s = [.txAbort] := by
  unfold abortOf
  split_ifs <;> simp

/-- The launch, as it shows in the state after the event (R171): `t` agrees on the engine's side with `dispatch v`. -/
theorem launch_of_dispatch (h : SameEngine (dispatch v) t) :
    (t.state = v.state ∧ t.cnt = v.cnt ∧ t.txslot = v.txslot ∧ t.busOut = v.busOut) ∨
    (v.state = .idle ∧ v.wr ≠ v.rd ∧ v.cnt = 0 ∧ t.state = .waitForSend ∧ t.cnt = v.cfg.tSend ∧
      t.txslot = ⟨true, frameOf (head t)⟩ ∧ t.busOut = v.busOut ++ [.txStart t.txslot.frame]) := by
  have hhead : head t = head v := h.head_eq.trans (head_congr (dispatch_rd v) (dispatch_q v))
  rcases dispatch_cases v with ⟨hidle, hne, hcnt, heq⟩ | ⟨_, heq⟩
  · rw [heq] at h
    have hslot : t.txslot = ⟨true, frameOf (head t)⟩ := by rw [h.txslot, hhead]
    exact .inr ⟨hidle, hne, hcnt, h.state, h.cnt, hslot, by rw [h.busOut, hslot, hhead]⟩
  · rw [heq] at h
    exact .inl ⟨h.state, h.cnt, h.txslot, h.busOut⟩

end

/-- Settles O54: the move emits the abort of an expired launch or nothing, and `dispatch()` the start of a launch or
nothing. -/
theorem busOutputsAreLaunchesAndAborts : Obligations.BusOutputsAreLaunchesAndAborts := by
  intro s t i hs hx
  by_cases hi : i = .reset
  · subst hi
    cases hx
    exact ⟨[], (List.append_nil _).symm, .inl rfl, nofun, by simp⟩
  obtain ⟨u, v, hm, he, h⟩ := acts_of_exec hs hi hx
  have hcfg := hm.cfg_eq
  obtain ⟨wr, re, q, rfl⟩ := he.writes
  rcases launch_of_dispatch h with ⟨_, _, _, hout⟩ | ⟨hidle, _, _, hstate, hcnt, hslot, hout⟩
  · refine ⟨abortOf i s, hout.trans hm.busOut_eq, ?_, fun hmem => absurd hmem (txStart_not_mem_abortOf _),
      txAbort_mem_abortOf⟩
    rcases abortOf_cases i s with habort | habort <;> simp [habort]
  · refine ⟨abortOf i s ++ [.txStart t.txslot.frame], ?_, ?_, fun _ => ⟨hstate, ?_, hslot, ?_⟩, ?_⟩
    · rw [hout, ← List.append_assoc]
      exact congrArg (· ++ _) hm.busOut_eq
    · rcases abortOf_cases i s with habort | habort <;> simp [habort]
    · rw [hcnt, ← hcfg]
    · have hrd : t.rd = u.rd := h.rd.trans (dispatch_rd _)
      exact (hm.idle_cases hidle).imp_right hrd.trans
    · simp [txAbort_mem_abortOf]

/-! ## The result slots (R44, R80) -/

section

variable {i : Instr} {s t u : State}

/-- Only a retirement writes a slot, the head's. -/
theorem EngineMove.res_cases (h : EngineMove i s u) : u.res = s.res ∨
    (eventOf i).context = .interrupt ∧ s.state ≠ .idle ∧ u.rd = (s.rd + 1) % s.cfg.n ∧
      ∃ v : ResSlot, (v.st = .done ∨ v = ⟨.timeout, 0, 0⟩) ∧ u.res = slotsAfter (head s) v s.res := by
  cases h with
  | keep => exact .inl rfl
  | countDown => exact .inl rfl
  | await => exact .inl rfl
  | retire hint _ hbusy v hv => exact .inr ⟨hint, hbusy, rfl, v, hv, rfl⟩

theorem Enqueue.res_cases (h : Enqueue i s t) : t.res = s.res ∨
    ∃ cls a len data r, i = .enqr cls a len data r ∧ (readSlot s r).st ≠ .pending ∧
      t.res = s.res.set r.toFin ResSlot.preset := by
  cases h with
  | none => exact .inl rfl
  | plain e _ _ hp => exact .inl (by rw [(push_eq_some hp).2])
  | referenced cls a len data r hi _ _ hfree hp =>
    exact .inr ⟨cls, a, len, data, r, hi, hfree, congrArg State.res (push_eq_some hp).2⟩

theorem head_mem_liveEntries (hs : Inv s) (hbusy : s.state ≠ .idle) : head s ∈ liveEntries s :=
  List.mem_of_mem_head? (head?_liveEntries hs.ring (hs.busy_nonempty hbusy))

end

/-- Settles O55: a slot that a retirement writes is PENDING by I7, and one that an ENQR writes is not. -/
theorem slotsAreWriteOnceMailboxes : Obligations.SlotsAreWriteOnceMailboxes := by
  intro s t i r hs hi hx hne
  obtain ⟨u, v, hm, he, h⟩ := acts_of_exec hs hi hx
  have hres : t.res = v.res := h.res.trans (dispatch_res v)
  have hrd : t.rd = u.rd := by
    rw [h.rd, dispatch_rd]
    obtain ⟨_, _, _, rfl⟩ := he.writes
    rfl
  rcases he.res_cases with hsame | ⟨cls, a, len, data, r', rfl, hfree, hpreset⟩
  case inl =>
    rcases hm.res_cases with hkept | ⟨_, hbusy, hadvance, w, hw, hwrite⟩
    · exact absurd (by rw [readSlot, hres, hsame, hkept]; rfl) hne
    · have hread : readSlot t r = if (head s).rv = true ∧ (head s).rslot = r then w else readSlot s r := by
        rw [readSlot, hres, hsame, hwrite, getElem_slotsAfter]
        rfl
      by_cases hnamed : (head s).rv = true ∧ (head s).rslot = r
      · rw [if_pos hnamed] at hread
        have hpending : (readSlot s r).st = .pending :=
          hnamed.2 ▸ hs.pending_of_live _ (head_mem_liveEntries hs hbusy) hnamed.1
        exact ⟨fun _ => ⟨hnamed.1, hnamed.2, hbusy, hrd.trans hadvance, hread ▸ hw⟩, absurd hpending⟩
      · exact absurd (hread.trans (if_neg hnamed)) hne
  case inr =>
    obtain rfl := hm.eq_of_foreground rfl
    have hread : readSlot t r = if r' = r then ResSlot.preset else readSlot u r := by
      rw [readSlot, hres, hpreset, getElem_set_slot]
      rfl
    by_cases hnamed : r' = r
    · subst hnamed
      rw [if_pos rfl] at hread
      exact ⟨fun hpending => absurd hpending hfree, fun _ => ⟨⟨cls, a, len, data, rfl⟩, hread⟩⟩
    · exact absurd (hread.trans (if_neg hnamed)) hne

/-! ## The host's reach (R152) -/

section

variable {i : Instr} {s t : State}

/-- A host operation writes no value of a field and validates none (R152). -/
theorem field_of_foreground (hi : (eventOf i).context = .foreground) (hx : exec i s = .next t) (k : Fin 9) :
    t.field[k].value = s.field[k].value ∧ (t.field[k].valid = true → s.field[k].valid = true) := by
  have hkept : ∀ t' : State, t'.field = s.field →
      t'.field[k].value = s.field[k].value ∧ (t'.field[k].valid = true → s.field[k].valid = true) := fun t' h => by
    rw [h]
    exact ⟨rfl, id⟩
  cases writes_of_exec hx with
  | tick h => rw [h] at hi; cases hi
  | sent h => rw [h] at hi; cases hi
  | received h => rw [h] at hi; cases hi
  | reset h => rw [h] at hi; cases hi
  | enq _ ht => obtain ⟨_, _, _, _, _, _, _, _, rfl⟩ := ht; exact hkept _ rfl
  | enqr _ ht => obtain ⟨_, _, _, _, _, _, _, _, rfl⟩ := ht; exact hkept _ rfl
  | setaddr _ _ ht => obtain ⟨_, _, _, _, _, _, _, _, rfl⟩ := ht; simp
  | enum _ ht => obtain ⟨_, _, _, _, _, _, _, _, rfl⟩ := ht; exact hkept _ rfl
  | _ => exact hkept _ rfl

/-- A host operation sets no presence bit (R152). -/
theorem pres_of_foreground (hi : (eventOf i).context = .foreground) (hx : exec i s = .next t) (a : Nat)
    (ht : t.pres.getLsbD a = true) : s.pres.getLsbD a = true := by
  cases writes_of_exec hx with
  | received h => rw [h] at hi; cases hi
  | reset h => rw [h] at hi; cases hi
  | enq _ hw => obtain ⟨_, _, _, _, _, _, _, _, rfl⟩ := hw; exact ht
  | enqr _ hw => obtain ⟨_, _, _, _, _, _, _, _, rfl⟩ := hw; exact ht
  | setaddr _ _ hw => obtain ⟨_, _, _, _, _, _, _, _, rfl⟩ := hw; exact ht
  | enum _ hw =>
    obtain ⟨_, _, _, _, _, _, _, _, rfl⟩ := hw
    change (0 : BitVec 64).getLsbD a = true at ht
    simp at ht
  | _ => exact ht

end

/-- Settles O52: the engine's part of a host operation is an enqueue and `dispatch()`. -/
theorem hostCannotReachTheEngine : Obligations.HostCannotReachTheEngine := by
  intro s t i hs hi hx
  have hreset : i ≠ .reset := fun h => by simp [h, eventOf, Event.context] at hi
  obtain ⟨u, v, hm, he, h⟩ := acts_of_exec hs hreset hx
  obtain rfl := hm.eq_of_foreground hi
  obtain ⟨new, _, hlive, hrd, _, _⟩ := he.queue hs.ring
  have hlive' : liveEntries t = liveEntries v := h.liveEntries_eq.trans
    (liveEntries_congr (dispatch_cfg v) (dispatch_rd v) (dispatch_wr v) (dispatch_q v))
  obtain ⟨wr, re, q, rfl⟩ := he.writes
  have hlaunch := launch_of_dispatch h
  refine ⟨h.rd.trans (dispatch_rd _), ⟨new, hlive'.trans hlive⟩, field_of_foreground hi hx,
    pres_of_foreground hi hx, ?_, ?_⟩
  · rcases hlaunch with ⟨_, _, _, hout⟩ | ⟨_, _, _, _, _, _, hout⟩ <;> simp [hout]
  · refine hlaunch.imp_right fun ⟨hidle, _, hcnt, hstate, hload, hslot, hout⟩ => ⟨hidle, hcnt, ?_, hstate, hload,
      hslot, hout⟩
    by_contra hne
    exact hs.no_idle_work ⟨hidle, hne, hcnt⟩

end Sys2Proof.Machine

/-! Runs of events (R9, R187, R191): the countdown of the entry in flight, and the settling window (R50, R182). -/

namespace Sys2Proof.Machine

/-! ## Runs -/

section

variable {i : Instr} {is : List Instr} {s t : State}

theorem runEvents_cons : runEvents (i :: is) s = .next t ↔ ∃ u, exec i s = .next u ∧ runEvents is u = .next t := by
  rw [runEvents]
  cases exec i s <;> simp

theorem runEvents_cons_of_exec {u : State} (h : exec i s = .next u) : runEvents (i :: is) s = runEvents is u := by
  simp only [runEvents, h]

theorem count_tick_cons (i : Instr) (is : List Instr) :
    (i :: is).count .tick = is.count .tick + if i = .tick then 1 else 0 := by
  simp [List.count_cons]

theorem ne_and_not_mem {j : Instr} (h : j ∉ i :: is) : i ≠ j ∧ j ∉ is :=
  ⟨(List.ne_of_not_mem_cons h).symm, List.not_mem_of_not_mem_cons h⟩

end

/-! ## The entry in flight (R187) -/

/-- The TICKs after which the entry in flight is retired at the latest: the rest of its launch and the longer of the
two waits, or the rest of its wait. -/
def ticksLeft (s : State) : Nat :=
  match s.state with
  | .idle => 0
  | .waitForSend => s.cnt + max s.cfg.tAck s.cfg.tUpdate
  | .waitForAck => s.cnt

section

variable {i : Instr} {s t u v : State}

theorem cnt_le_ticksLeft (hbusy : s.state ≠ .idle) : s.cnt ≤ ticksLeft s := by
  unfold ticksLeft
  split
  · next h => exact absurd h hbusy
  · exact Nat.le_add_right ..
  · exact le_refl _

theorem ticksLeft_le (hs : Inv s) : ticksLeft s ≤ s.cfg.tSend + max s.cfg.tAck s.cfg.tUpdate := by
  unfold ticksLeft
  split
  · exact Nat.zero_le _
  · next h => exact Nat.add_le_add_right (hs.cnt_send h) _
  · next h =>
    have := hs.cnt_ack h
    omega

/-- What stays of an engine that is not Idle once the event is over: `dispatch()` launches nothing. -/
theorem sameEngine_of_busy (he : Enqueue i u v) (h : SameEngine (dispatch v) t) (hu : u.state ≠ .idle) :
    t.cfg = u.cfg ∧ t.state = u.state ∧ t.cnt = u.cnt ∧ t.rd = u.rd := by
  obtain ⟨wr, re, q, hv⟩ := he.writes
  have hno : dispatch v = v := dispatch_of_not (by rw [hv]; exact fun hwork => hu hwork.1)
  rw [hno, hv] at h
  exact ⟨h.cfg, h.state, h.cnt, h.rd⟩

/-- A move of a busy engine retires the entry, or brings its retirement nearer by one if the event is a TICK, and
never farther off. -/
theorem EngineMove.ticksLeft (hbusy : s.state ≠ .idle) (hcnt : 1 ≤ s.cnt) (h : EngineMove i s u) :
    u.rd = (s.rd + 1) % s.cfg.n ∨ u.state ≠ .idle ∧ u.rd = s.rd ∧
      ticksLeft u + (if i = .tick then 1 else 0) ≤ ticksLeft s := by
  cases h with
  | keep htick =>
    have hi : i ≠ .tick := fun h => by simp [htick h] at hcnt
    exact .inr ⟨hbusy, rfl, by rw [if_neg hi]; exact le_refl _⟩
  | countDown hi =>
    refine .inr ⟨hbusy, rfl, ?_⟩
    cases hs : s.state with
    | idle => exact absurd hs hbusy
    | waitForSend =>
      simp only [Machine.ticksLeft, hs, if_pos hi]
      omega
    | waitForAck =>
      simp only [Machine.ticksLeft, hs, if_pos hi]
      omega
  | await htxc hs load hload =>
    have hi : i ≠ .tick := ne_tick_of_eventOf (by simp [htxc])
    refine .inr ⟨nofun, rfl, ?_⟩
    simp only [Machine.ticksLeft, hs, if_neg hi]
    rcases hload with rfl | rfl <;> omega
  | retire => exact .inl rfl

/-- The same of the whole event. -/
theorem ticksLeft_of_exec (hs : Inv s) (hbusy : s.state ≠ .idle) (hi : i ≠ .reset) (hx : exec i s = .next t) :
    t.rd = (s.rd + 1) % s.cfg.n ∨ t.state ≠ .idle ∧ t.rd = s.rd ∧ t.cfg = s.cfg ∧
      ticksLeft t + (if i = .tick then 1 else 0) ≤ ticksLeft s := by
  obtain ⟨u, v, hm, he, h⟩ := acts_of_exec hs hi hx
  rcases hm.ticksLeft hbusy (hs.busy_counts hbusy) with hretired | ⟨hu, hrd, hleft⟩
  · obtain ⟨_, _, _, rfl⟩ := he.writes
    exact .inl ((h.rd.trans (dispatch_rd _)).trans hretired)
  · obtain ⟨hcfg, hstate, hcnt, hrd'⟩ := sameEngine_of_busy he h hu
    have hsame : ticksLeft t = ticksLeft u := by simp only [ticksLeft, hcfg, hstate, hcnt]
    exact .inr ⟨hstate ▸ hu, hrd'.trans hrd, hcfg.trans hm.cfg_eq, hsame ▸ hleft⟩

/-- An entry in flight is retired within `ticksLeft` TICKs, whatever is presented with them. -/
theorem retired_of_ticksLeft_le {is : List Instr} (hs : Inv s) (hbusy : s.state ≠ .idle) (hreset : .reset ∉ is)
    (hticks : ticksLeft s ≤ is.count .tick) (hrun : runEvents is s = .next t) :
    ∃ before after u, is = before ++ after ∧ runEvents before s = .next u ∧ u.rd = (s.rd + 1) % s.cfg.n := by
  induction is generalizing s with
  | nil =>
    have hpos := (hs.busy_counts hbusy).trans (cnt_le_ticksLeft hbusy)
    exact absurd hticks (Nat.not_le.2 hpos)
  | cons i is ih =>
    obtain ⟨s', hx, hrun⟩ := runEvents_cons.1 hrun
    obtain ⟨hi, hreset⟩ := ne_and_not_mem hreset
    rcases ticksLeft_of_exec hs hbusy hi hx with hretired | ⟨hbusy', hrd, hcfg, hleft⟩
    · exact ⟨[i], is, s', rfl, runEvents_cons.2 ⟨s', hx, rfl⟩, hretired⟩
    · rw [count_tick_cons] at hticks
      obtain ⟨before, after, u, hsplit, hbefore, hu⟩ := ih (inv_of_exec hs hx) hbusy' hreset (by omega) hrun
      refine ⟨i :: before, after, u, by rw [hsplit]; rfl, runEvents_cons.2 ⟨s', hx, hbefore⟩, ?_⟩
      rw [hu, hrd, hcfg]

end

/-- Settles O58: the bound is the most that `ticksLeft` can be. -/
theorem everyLaunchedEntryIsRetired : Obligations.EveryLaunchedEntryIsRetired := by
  intro s t is hs hbusy hreset hticks hrun
  exact retired_of_ticksLeft_le hs hbusy hreset ((ticksLeft_le hs).trans hticks) hrun

/-! ## The settling window (R50, R182) -/

section

variable {i : Instr} {s t : State}

/-- With the window open longer than this event, an event changes nothing of the engine but the ring's end and, if it
is a TICK, the countdown. -/
theorem settling_of_exec (hidle : s.state = .idle) (hcnt : (if i = .tick then 1 else 0) < s.cnt) (hi : i ≠ .reset)
    (hx : exec i s = .next t) : t.cfg = s.cfg ∧ t.state = .idle ∧ t.cnt = s.cnt - (if i = .tick then 1 else 0) ∧
      t.busOut = s.busOut ∧ t.rd = s.rd := by
  rcases engineStep_exec hi hx with ⟨htick, h⟩ | ⟨w, ⟨u, v, hm, he, hvw⟩, h⟩
  · rw [if_neg htick]
    exact ⟨h.cfg, h.state.trans hidle, h.cnt, h.busOut, h.rd⟩
  have hu : u = { s with cnt := s.cnt - (if i = .tick then 1 else 0) } := by
    cases hm with
    | keep htick =>
      have hne : i ≠ .tick := fun h => by simp [htick h] at hcnt
      rw [if_neg hne, Nat.sub_zero]
    | countDown htick => rw [if_pos htick]
    | await _ hs => simp [hidle] at hs
    | retire _ _ hbusy => exact absurd hidle hbusy
  obtain ⟨wr, re, q, rfl⟩ := he.writes
  subst hu
  have h := hvw.dispatch.trans h
  rw [dispatch_of_not fun hwork => (Nat.sub_pos_of_lt hcnt).ne' hwork.2.2] at h
  exact ⟨h.cfg, h.state.trans hidle, h.cnt, h.busOut, h.rd⟩

end

/-- Settles O59: one event after the other, since none can close the window before its last TICK. -/
theorem settlingHoldsOffTransmission : Obligations.SettlingHoldsOffTransmission := by
  intro s t is hidle hticks hreset hrun
  induction is generalizing s with
  | nil =>
    cases hrun
    exact ⟨hidle, rfl, rfl, rfl⟩
  | cons i is ih =>
    obtain ⟨u, hx, hrun⟩ := runEvents_cons.1 hrun
    obtain ⟨hi, hreset⟩ := ne_and_not_mem hreset
    rw [count_tick_cons] at hticks
    obtain ⟨_, hidle', hcnt, hout, hrd⟩ := settling_of_exec hidle (by omega) hi hx
    obtain ⟨h1, h2, h3, h4⟩ := ih u hidle' (by omega) hreset hrun
    refine ⟨h1, ?_, h3.trans hout, h4.trans hrd⟩
    rw [h2, hcnt, count_tick_cons]
    omega

/-! ## The presence bitmap inside the window (R207) -/

section

variable {i : Instr} {s t : State} {c : Config} {cls : Cls}

theorem rxKind_eq_enumReply_iff (hc : c.Valid) : rxKind c cls = .enumReply ↔ cls = c.clsEnumReply := by
  refine ⟨fun h => ?_, fun h => h ▸ rxKind_clsEnumReply hc⟩
  unfold rxKind at h
  split at h
  · cases h
  · split_ifs at h with _ hreply
    exact hreply

/-- The row an RXF or a row of it runs as, with what makes it an enumeration reply. -/
theorem exists_receivedRow_reply (hi : eventOf i = .rxf) (hc : s.cfg.Valid) :
    ∃ kind cls b len data, exec i s = exec (receivedRow kind cls b len data) s ∧
      ∀ a, isEnumReplyFrom s.cfg a i = true ↔ kind = .enumReply ∧ b = a ∧ len.toNat ≤ 8 := by
  cases i with
  | rxf id len data =>
    have hrow := exec_rxf_identOf (s := s) (a := devNoOf id) (len := len) (data := data)
      (rfl : rxKind s.cfg (classOf id) = _)
    rw [identOf_classOf_devNoOf] at hrow
    refine ⟨_, _, _, _, _, hrow, fun a => ?_⟩
    rw [rxKind_eq_enumReply_iff hc]
    simp [isEnumReplyFrom, lenReserved_eq_false, and_assoc]
  | rxfStatusVout b len data => exact ⟨.status 0, 0, b, len, data, rfl, by simp [isEnumReplyFrom]⟩
  | rxfStatusVbus b len data => exact ⟨.status 1, 0, b, len, data, rfl, by simp [isEnumReplyFrom]⟩
  | rxfStatusCurrent b len data => exact ⟨.status 2, 0, b, len, data, rfl, by simp [isEnumReplyFrom]⟩
  | rxfStatusTemp b len data => exact ⟨.status 3, 0, b, len, data, rfl, by simp [isEnumReplyFrom]⟩
  | rxfStatusPosition b len data => exact ⟨.status 4, 0, b, len, data, rfl, by simp [isEnumReplyFrom]⟩
  | rxfStatusSpeed b len data => exact ⟨.status 5, 0, b, len, data, rfl, by simp [isEnumReplyFrom]⟩
  | rxfStatusLimit b len data => exact ⟨.status 6, 0, b, len, data, rfl, by simp [isEnumReplyFrom]⟩
  | rxfStatusFault b len data => exact ⟨.status 7, 0, b, len, data, rfl, by simp [isEnumReplyFrom]⟩
  | rxfFwver b len data => exact ⟨.fwver, 0, b, len, data, rfl, by simp [isEnumReplyFrom]⟩
  | rxfEnumReply b len data =>
    exact ⟨.enumReply, 0, b, len, data, rfl, by simp [isEnumReplyFrom, lenReserved_eq_false]⟩
  | rxfAck b len data => exact ⟨.ack, 0, b, len, data, rfl, by simp [isEnumReplyFrom]⟩
  | rxfUpdack b len data => exact ⟨.updack, 0, b, len, data, rfl, by simp [isEnumReplyFrom]⟩
  | rxfOther cls b len data => exact ⟨.other, cls, b, len, data, rfl, by simp [isEnumReplyFrom]⟩
  | _ => cases hi

/-- While settling, a reply of device `b` sets just the bit of `b` (R43, R207). -/
theorem getLsbD_rxEnum_pres (hidle : s.state = .idle) (hcnt : s.cnt ≠ 0) {a b : DevNo} (ha : a ≠ 0) :
    (rxEnum b s).pres.getLsbD a.toNat = true ↔ s.pres.getLsbD a.toNat = true ∨ b = a := by
  have hlt : a.toNat < 64 := a.isLt
  have hbit : a.toNat = b.toNat ↔ b = a := BitVec.toNat_inj.trans eq_comm
  rw [rxEnum_eq]
  by_cases hb : b = 0
  · subst hb
    rw [if_neg fun h => h.2.2 rfl, or_iff_left ha.symm]
  · rw [if_pos ⟨hidle, hcnt, hb⟩]
    simp [hbit, hlt]

/-- Besides ENUM and RESET only a received frame writes the bitmap (R30). -/
theorem pres_of_not_rxf (hi : eventOf i ≠ .rxf) (hreset : i ≠ .reset) (henum : i ≠ .enum)
    (hx : exec i s = .next t) : t.pres = s.pres := by
  cases writes_of_exec hx with
  | received h => exact absurd h hi
  | reset h => exact absurd h hreset
  | enum h => exact absurd h henum
  | enq _ ht => obtain ⟨_, _, _, _, _, _, _, _, rfl⟩ := ht; rfl
  | enqr _ ht => obtain ⟨_, _, _, _, _, _, _, _, rfl⟩ := ht; rfl
  | setaddr _ _ ht => obtain ⟨_, _, _, _, _, _, _, _, rfl⟩ := ht; rfl
  | _ => rfl

theorem pres_of_exec (hc : s.cfg.Valid) (hidle : s.state = .idle) (hcnt : s.cnt ≠ 0) (hreset : i ≠ .reset)
    (henum : i ≠ .enum) (hx : exec i s = .next t) {a : DevNo} (ha : a ≠ 0) :
    t.pres.getLsbD a.toNat = true ↔ s.pres.getLsbD a.toNat = true ∨ isEnumReplyFrom s.cfg a i = true := by
  by_cases hi : eventOf i = .rxf
  case neg =>
    have hno : isEnumReplyFrom s.cfg a i = false := by
      unfold isEnumReplyFrom
      split
      · exact absurd rfl hi
      · exact absurd rfl hi
      · rfl
    simp [pres_of_not_rxf hi hreset henum hx, hno]
  case pos =>
    obtain ⟨kind, cls, b, len, data, hrow, hreply⟩ := exists_receivedRow_reply hi hc
    rw [exec_receivedRow] at hrow
    cases hrow.symm.trans hx
    rw [hreply, receive, dispatch_pres]
    cases hlen : lenReserved len with
    | true =>
      have := lenReserved_eq_true.1 hlen
      simp
      omega
    | false =>
      rw [if_neg Bool.false_ne_true, receivedAction_pres]
      by_cases hkind : kind = .enumReply
      · subst hkind
        simp [presAfter, getLsbD_rxEnum_pres hidle hcnt ha, lenReserved_eq_false.1 hlen]
      · have hpres : presAfter kind b s = s.pres := by
          cases kind with
          | enumReply => exact absurd rfl hkind
          | _ => rfl
        simp [hpres, hkind]

end

/-- Settles O60: one event after the other; the window stays open, so every reply in the run counts. -/
theorem presenceBitmapIsExact : Obligations.PresenceBitmapIsExact := by
  intro s t is a hc hidle hticks hreset henum hrun ha
  induction is generalizing s with
  | nil =>
    cases hrun
    simp
  | cons i is ih =>
    obtain ⟨u, hx, hrun⟩ := runEvents_cons.1 hrun
    obtain ⟨hi, hreset⟩ := ne_and_not_mem hreset
    obtain ⟨hi', henum⟩ := ne_and_not_mem henum
    rw [count_tick_cons] at hticks
    obtain ⟨hcfg, hidle', hcnt, _, _⟩ := settling_of_exec hidle (by omega) hi hx
    rw [ih u (hcfg ▸ hc) hidle' (by omega) hreset henum hrun,
      pres_of_exec hc hidle (by omega) hi hi' hx ha, hcfg]
    simp [or_assoc]

end Sys2Proof.Machine

/-! The scheduler's events by their cases (R171 to R184), and runs of them that nothing answers (R187). -/

namespace Sys2Proof.Machine

/-! ## `dispatch()` and TICK (R171, R175, R180) -/

section

variable {s : State}

theorem dispatch_of_work (hs : s.state = .idle) (hne : s.wr ≠ s.rd) (hc : s.cnt = 0) :
    dispatch s = { s with
      txslot := ⟨true, frameOf (head s)⟩
      busOut := s.busOut ++ [.txStart (frameOf (head s))]
      state := .waitForSend
      cnt := s.cfg.tSend } := by
  rcases dispatch_cases s with ⟨_, _, _, h⟩ | ⟨h, _⟩
  · exact h
  · exact absurd ⟨hs, hne, hc⟩ h

theorem dispatch_of_cnt_ne_zero (h : s.cnt ≠ 0) : dispatch s = s := dispatch_of_not fun hwork => h hwork.2.2

theorem dispatch_of_state_ne_idle (h : s.state ≠ .idle) : dispatch s = s := dispatch_of_not fun hwork => h hwork.1

theorem exec_tick_of_two_le (h : 2 ≤ s.cnt) : exec .tick s = .next { s with cnt := s.cnt - 1 } := by
  have h0 : s.cnt ≠ 0 := by omega
  have h1 : s.cnt ≠ 1 := by omega
  have hrest : s.cnt - 1 ≠ 0 := by omega
  rw [exec_tick, countDown, if_neg h0, if_neg h1, dispatch_of_cnt_ne_zero hrest]

theorem countDown_of_idle_expiry (hs : s.state = .idle) (h : s.cnt = 1) : countDown s = { s with cnt := 0 } := by
  simp only [countDown, h, expire, hs, one_ne_zero, ↓reduceIte]

end

/-- Settles O21: the two outcomes of `dispatch()` exclude each other. -/
theorem dispatchLaunchesTheHead : Obligations.DispatchLaunchesTheHead := by
  refine fun s => ⟨dispatch_of_work, fun h => dispatch_of_not fun ⟨hs, hne, hc⟩ => ?_⟩
  rcases h with h | h | h
  · exact h hs
  · exact hne h
  · exact h hc

/-- Settles O22: above 1 the countdown neither expires nor lets `dispatch()` launch. -/
theorem tickDecrementsTheCountdown : Obligations.TickDecrementsTheCountdown := fun _ => exec_tick_of_two_le

/-- Settles O24: expiry in Idle leaves the launch to the `dispatch()` of the same TICK. -/
theorem expiryInIdleClosesTheWindow : Obligations.ExpiryInIdleClosesTheWindow := by
  intro s hs hcnt
  rw [exec_tick, countDown_of_idle_expiry hs hcnt]
  split_ifs with hempty
  · exact congrArg _ (dispatch_of_not fun hwork => hwork.2.1 hempty)
  · exact congrArg _ (dispatch_of_work (s := { s with cnt := 0 }) hs hempty rfl)

/-! ## The second-level decode runs the right row (R110, R111) -/

section

variable {c : Config} {cls : Cls} {s : State}

theorem decodeRx_eq_receivedRow (c : Config) (id : Ident) (len : Len) (data : Payload) :
    decodeRx c id len data = receivedRow (rxKind c (classOf id)) (classOf id) (devNoOf id) len data := by
  unfold decodeRx
  cases rxKind c (classOf id) with
  | status k => fin_cases k <;> rfl
  | _ => rfl

theorem exec_rxf_eq_decodeRx (s : State) (id : Ident) (len : Len) (data : Payload) :
    exec (.rxf id len data) s = exec (decodeRx s.cfg id len data) s := by
  rw [decodeRx_eq_receivedRow, ← exec_rxf_identOf rfl, identOf_classOf_devNoOf]

/-- The API class is the low end of the class (R100, R103). -/
theorem apiOf_eq (id : Ident) : apiOf id = (classOf id).extractLsb' 0 10 := by
  apply BitVec.eq_of_getLsbD_eq
  intro i hi
  simp [apiOf, classOf, hi, show i < 23 by omega]

/-! The row of the frame just sent, by the kind of its class (R111). -/

theorem decodeTx_of_enum (h : txKind c cls = .enum) (a : DevNo) : decodeTx c (identOf cls a) = .txcEnum a := by
  simp only [decodeTx, classOf_identOf, devNoOf_identOf, h]

theorem decodeTx_of_noAck (h : txKind c cls = .noAck) (a : DevNo) :
    decodeTx c (identOf cls a) = .txcUntagged (cls.extractLsb' 0 10) a := by
  simp only [decodeTx, classOf_identOf, devNoOf_identOf, apiOf_eq, h]

theorem decodeTx_of_ackLong (h : txKind c cls = .ackLong) (a : DevNo) : decodeTx c (identOf cls a) =
    if c.updLong.head? = some cls then .txcTaggedLongDl a else .txcTaggedLongSd cls a := by
  simp only [decodeTx, classOf_identOf, devNoOf_identOf, h]

theorem decodeTx_of_ack (h : txKind c cls = .ack) (a : DevNo) : decodeTx c (identOf cls a) = .txcTagged cls a := by
  simp only [decodeTx, classOf_identOf, devNoOf_identOf, h]

theorem exec_txc_of_waitForSend (hs : s.state = .waitForSend) :
    exec .txc s = exec (decodeTx s.cfg (frameOf (head s)).id) s := by
  change execTxc s = exec (decodeTx s.cfg (identOf (head s).cls (head s).addr)) s
  rw [execTxc, if_pos hs]
  cases hkind : txKind s.cfg (head s).cls with
  | enum => rw [decodeTx_of_enum hkind]; rfl
  | noAck => rw [decodeTx_of_noAck hkind]; rfl
  | ackLong =>
    rw [decodeTx_of_ackLong hkind]
    dsimp only
    split_ifs <;> rfl
  | ack => rw [decodeTx_of_ack hkind]; rfl

/-! The lines of R111. -/

theorem txKind_clsEnum (c : Config) : txKind c c.clsEnum = .enum := if_pos rfl

theorem txKind_of_untagged (he : cls ≠ c.clsEnum) (h : cls.extractLsb' 10 13 = 0) : txKind c cls = .noAck := by
  rw [txKind, if_neg he, untagged, if_pos (beq_iff_eq.2 h)]

theorem txKind_of_tagged (he : cls ≠ c.clsEnum) (h : cls.extractLsb' 10 13 ≠ 0) :
    txKind c cls = if cls ∈ c.updLong then .ackLong else .ack := by
  rw [txKind, if_neg he, untagged, if_neg (beq_iff_eq.not.2 h)]

end

/-- Settles O9: both events make the classification that the second-level decode makes. -/
theorem eventsRunTheirSecondLevelRow : Obligations.EventsRunTheirSecondLevelRow :=
  ⟨exec_rxf_eq_decodeRx, fun _ => exec_txc_of_waitForSend⟩

/-! ## TXC (R181 to R184) -/

section

variable {s : State} {action : State → State}

theorem txComplete_of_waitForSend (hs : s.state = .waitForSend) :
    txComplete action s = dispatch (action { s with txslot := ⟨false, s.txslot.frame⟩ }) := by
  rw [txComplete, if_pos hs]

theorem txComplete_of_ne (hs : s.state ≠ .waitForSend) : txComplete action s = dispatch s := by
  rw [txComplete, if_neg hs]

theorem exec_sentRow_of_ne {i : Instr} (hs : s.state ≠ .waitForSend) (hi : isSentRow i = true) :
    exec i s = .next (dispatch s) := by
  cases i with
  | txcEnum => exact congrArg _ (txComplete_of_ne hs)
  | txcUntagged => exact congrArg _ (txComplete_of_ne hs)
  | txcTaggedLongDl => exact congrArg _ (txComplete_of_ne hs)
  | txcTaggedLongSd => exact congrArg _ (txComplete_of_ne hs)
  | txcTagged => exact congrArg _ (txComplete_of_ne hs)
  | _ => cases hi

theorem exec_txc_of_ne (hs : s.state ≠ .waitForSend) : exec .txc s = .next (dispatch s) := by
  change execTxc s = _
  rw [execTxc, if_neg hs]

/-- The rows that wait for an acknowledgement launch nothing (R184). -/
theorem txComplete_await (hs : s.state = .waitForSend) (load : State → Nat) :
    txComplete (fun u => toWaitForAck (load u) u) s = { s with
      txslot := ⟨false, s.txslot.frame⟩
      state := .waitForAck
      cnt := load { s with txslot := ⟨false, s.txslot.frame⟩ } } := by
  rw [txComplete_of_waitForSend hs, dispatch_of_state_ne_idle (by simp)]
  rfl

/-- The rows that retire the entry just sent (R182, R183). -/
theorem txComplete_retire (hs : s.state = .waitForSend) (load : State → Nat) :
    txComplete (fun u => toIdle (load u) (retire false 0 0 u)) s = dispatch { s with
      txslot := ⟨false, s.txslot.frame⟩
      res := slotsAfter (head s) ⟨.timeout, 0, 0⟩ s.res
      rd := (s.rd + 1) % s.cfg.n
      state := .idle
      cnt := load { s with txslot := ⟨false, s.txslot.frame⟩ } } := by
  rw [txComplete_of_waitForSend hs, retire_eq_slotsAfter]
  rfl

end

/-- Settles O27: the window that opens holds off the `dispatch()` at the end. -/
theorem txcOfEnumerationOpensTheWindow : Obligations.TxcOfEnumerationOpensTheWindow := by
  intro s a hs hsettle t
  have hrow : ∀ b, exec (.txcEnum b) s = .next t := fun b => by
    change Host.Outcome.next (txComplete (fun u => toIdle u.cfg.tSettle (retire false 0 0 u)) s) = _
    rw [txComplete_retire hs, dispatch_of_cnt_ne_zero (Nat.one_le_iff_ne_zero.1 hsettle)]
  refine ⟨hrow a, fun hcls => ?_⟩
  rw [exec_txc_of_waitForSend hs, frameOf, decodeTx_of_enum (hcls ▸ txKind_clsEnum _)]
  exact hrow _

/-- Settles O28: the retirement comes first, and `dispatch()` sees the queue without the entry. -/
theorem txcOfUntaggedRetires : Obligations.TxcOfUntaggedRetires := by
  intro s api a hs t
  have hrow : ∀ api b, exec (.txcUntagged api b) s = .next t := fun _ _ =>
    congrArg _ (txComplete_retire hs fun _ => 0)
  refine ⟨hrow api a, fun henum htag => ?_⟩
  rw [exec_txc_of_waitForSend hs, frameOf, decodeTx_of_noAck (txKind_of_untagged henum htag)]
  exact hrow _ _

/-- Settles O29: the load is that of the row, and TXC chooses the row by the class of the head. -/
theorem txcOfTaggedAwaitsAck : Obligations.TxcOfTaggedAwaitsAck := by
  intro s cls a hs t
  have hdl : ∀ b, exec (.txcTaggedLongDl b) s = .next (t s.cfg.tUpdate) := fun _ =>
    congrArg _ (txComplete_await hs fun u => u.cfg.tUpdate)
  have hsd : ∀ cls b, exec (.txcTaggedLongSd cls b) s = .next (t s.cfg.tUpdate) := fun _ _ =>
    congrArg _ (txComplete_await hs fun u => u.cfg.tUpdate)
  have hshort : ∀ cls b, exec (.txcTagged cls b) s = .next (t s.cfg.tAck) := fun _ _ =>
    congrArg _ (txComplete_await hs fun u => u.cfg.tAck)
  refine ⟨hdl a, hsd cls a, hshort cls a, fun henum htag => ?_⟩
  have hkind := txKind_of_tagged henum htag
  rw [exec_txc_of_waitForSend hs, frameOf]
  by_cases hlong : (head s).cls ∈ s.cfg.updLong
  · rw [if_pos hlong] at hkind ⊢
    rw [decodeTx_of_ackLong hkind]
    split_ifs
    · exact hdl _
    · exact hsd _ _
  · rw [if_neg hlong] at hkind ⊢
    rw [decodeTx_of_ack hkind]
    exact hshort _ _

/-- Settles O30: the event leaves only `dispatch()`, which I5 leaves without work. -/
theorem txcOutsideWaitForSendIsIgnored : Obligations.TxcOutsideWaitForSendIsIgnored := by
  intro s i hs hne hi
  have hskip : exec i s = .next (dispatch s) := by
    by_cases htxc : i = .txc
    · rw [htxc, exec_txc_of_ne hne]
    · exact exec_sentRow_of_ne hne (by simp [isSentRow, hi, htxc])
  rw [hskip, dispatch_of_not hs.no_idle_work]

/-! ## Nothing but TICKs (R187 (a), (b)) -/

section

variable {s : State}

/-- TICKs that do not reach the end of the countdown only count it down, in every `STATE`. -/
theorem runEvents_ticks {k : Nat} (h : k < s.cnt) :
    runEvents (List.replicate k .tick) s = .next { s with cnt := s.cnt - k } := by
  induction k generalizing s with
  | zero => rfl
  | succ k ih =>
    have hrest : k < s.cnt - 1 := by omega
    rw [List.replicate_succ, runEvents_cons_of_exec (exec_tick_of_two_le (by omega)),
      ih (s := { s with cnt := s.cnt - 1 }) hrest, Nat.sub_sub, Nat.add_comm 1 k]

theorem runEvents_append {is js : List Instr} {u : State} (h : runEvents is s = .next u) :
    runEvents (is ++ js) s = runEvents js u := by
  induction is generalizing s with
  | nil =>
    cases h
    rfl
  | cons i is ih =>
    obtain ⟨v, hx, hrun⟩ := runEvents_cons.1 h
    rw [List.cons_append, runEvents_cons_of_exec hx, ih hrun]

/-- The TICK that ends the countdown finds everything else as it was. -/
theorem runEvents_ticks_expiry {t : State} (hcnt : 1 ≤ s.cnt) (hx : exec .tick { s with cnt := 1 } = .next t) :
    runEvents (List.replicate s.cnt .tick) s = .next t := by
  obtain ⟨k, hk⟩ := Nat.exists_eq_add_of_le' hcnt
  have hrest : s.cnt - k = 1 := by omega
  rw [hk, List.replicate_succ', runEvents_append (runEvents_ticks (by omega)), hrest]
  exact runEvents_cons.2 ⟨t, hx, rfl⟩

theorem dispatch_busOut_append (s : State) : ∃ outs, (dispatch s).busOut = s.busOut ++ outs := by
  rcases dispatch_cases s with ⟨_, _, _, h⟩ | ⟨_, h⟩
  · exact ⟨_, congrArg State.busOut h⟩
  · exact ⟨[], by rw [h, List.append_nil]⟩

end

/-- Settles O56: the countdown reaches 1 with nothing else changed, and the last TICK is the send time-out. -/
theorem sendTimeoutIsExact : Obligations.SendTimeoutIsExact := by
  intro s hs hstate
  refine ⟨fun k hk => runEvents_ticks hk, _, runEvents_ticks_expiry (hs.busy_counts (by simp [hstate]))
    (sendTimeoutRecovers { s with cnt := 1 } hstate rfl), ?_⟩
  refine ⟨dispatch_rd _, dispatch_err _, ?_, dispatch_res _, dispatch_field _⟩
  obtain ⟨outs, hout⟩ := dispatch_busOut_append { s with
    txslot := ⟨false, s.txslot.frame⟩
    busOut := s.busOut ++ [.txAbort]
    err := s.err ||| 2
    field := fieldsAfter s.cfg (head s).cls s.field
    res := slotsAfter (head s) ⟨.timeout, 0, 0⟩ s.res
    rd := (s.rd + 1) % s.cfg.n
    state := .idle
    cnt := 0 }
  exact ⟨outs, hout.trans (List.append_assoc ..)⟩

/-- Settles O57: the TXC loads the limit of the head's class, and from there on TICKs count it down. -/
theorem readTimesOutAtExactlyTAck : Obligations.ReadTimesOutAtExactlyTAck := by
  intro s k hs hstate henum htag limit
  obtain ⟨_, _, _, htxc⟩ := txcOfTaggedAwaitsAck s 0 0 hstate
  have hstart := htxc henum htag
  have hexpiry := ackTimeoutRecovers
    { s with txslot := ⟨false, s.txslot.frame⟩, state := .waitForAck, cnt := 1 } rfl rfl
  have hlimit : 1 ≤ limit := by
    obtain ⟨_, hack, hupdate, _⟩ := EngineOk.pos_of_valid hs.config
    unfold limit
    split_ifs
    · exact hupdate
    · exact hack
  refine ⟨fun hk => ?_, fun hk => ?_⟩
  · rw [runEvents_cons_of_exec hstart]
    exact runEvents_ticks hk
  · subst hk
    rw [runEvents_cons_of_exec hstart]
    refine ⟨_, runEvents_ticks_expiry (s := { s with
      txslot := ⟨false, s.txslot.frame⟩, state := .waitForAck, cnt := limit }) hlimit hexpiry, ?_⟩
    exact ⟨dispatch_rd _, dispatch_err _, dispatch_res _⟩

end Sys2Proof.Machine

/-! Received frames by their rows (R200 to R206, R209). -/

namespace Sys2Proof.Machine

section

variable {s t : State} {c : Config} {len : Len} {data : Payload} {action : State → State}

/-! ## Reserved lengths (R121) -/

theorem receive_of_lt (hs : Inv s) (h : 8 < len.toNat) : receive len action s = { s with err := s.err ||| 8 } := by
  rw [receive, if_pos (lenReserved_eq_true.2 h), dispatch_raise hs]
  rfl

theorem exec_receivedRow_of_lt (hs : Inv s) (h : 8 < len.toNat) (kind : RxKind) (cls : Cls) (a : DevNo) :
    exec (receivedRow kind cls a len data) s = .next { s with err := s.err ||| 8 } := by
  rw [exec_receivedRow, receive_of_lt hs h]

/-- The rows with a payload are those of a received frame (R110). -/
theorem exists_receivedRow_of_framePayload {i : Instr} (h : framePayload i = some (len, data)) :
    ∃ kind cls a, i = receivedRow kind cls a len data := by
  cases i with
  | rxfStatusVout a _ _ => cases h; exact ⟨.status 0, 0, a, rfl⟩
  | rxfStatusVbus a _ _ => cases h; exact ⟨.status 1, 0, a, rfl⟩
  | rxfStatusCurrent a _ _ => cases h; exact ⟨.status 2, 0, a, rfl⟩
  | rxfStatusTemp a _ _ => cases h; exact ⟨.status 3, 0, a, rfl⟩
  | rxfStatusPosition a _ _ => cases h; exact ⟨.status 4, 0, a, rfl⟩
  | rxfStatusSpeed a _ _ => cases h; exact ⟨.status 5, 0, a, rfl⟩
  | rxfStatusLimit a _ _ => cases h; exact ⟨.status 6, 0, a, rfl⟩
  | rxfStatusFault a _ _ => cases h; exact ⟨.status 7, 0, a, rfl⟩
  | rxfFwver a _ _ => cases h; exact ⟨.fwver, 0, a, rfl⟩
  | rxfEnumReply a _ _ => cases h; exact ⟨.enumReply, 0, a, rfl⟩
  | rxfAck a _ _ => cases h; exact ⟨.ack, 0, a, rfl⟩
  | rxfUpdack a _ _ => cases h; exact ⟨.updack, 0, a, rfl⟩
  | rxfOther cls a _ _ => cases h; exact ⟨.other, cls, a, rfl⟩
  | _ => cases h

/-! ## Status frames (R203 to R205) -/

/-- The field after a status frame (R203). -/
theorem updateField_eq (k : Fin 9) (a : DevNo) (len : Len) (data : Payload) (s : State) :
    updateField k a len data s = { s with
      field := s.field.set k
        (if a = s.target then ⟨BitVec.ofNat 32 (le data len.toNat), true⟩ else ⟨s.field[k].value, false⟩) } := by
  rcases updateField_cases s k a len data with ⟨ha, h⟩ | ⟨ha, h⟩
  · rw [h, if_pos ha]
    rfl
  · rw [h, if_neg ha]
    rfl

theorem slotOf_beq (a b : DevNo) (len : Len) (data : Payload) :
    slotOf (a == b) len data = if a = b then ⟨.done, len, data⟩ else ⟨.timeout, 0, 0⟩ := by
  by_cases h : a = b <;> simp [slotOf, h]

/-- The field first, then the retirement of a head of the frame's class (R203, R204). -/
theorem statusFrame_eq (k : Fin 9) (a : DevNo) (len : Len) (data : Payload) (s : State) :
    statusFrame k a len data s =
      (let s1 := { s with
        field := s.field.set k
          (if a = s.target then ⟨BitVec.ofNat 32 (le data len.toNat), true⟩ else ⟨s.field[k].value, false⟩) }
      if s.state = .waitForAck ∧ (head s).cls = classOfField s.cfg k then
        { s1 with
          res := slotsAfter (head s) (if a = (head s).addr then ⟨.done, len, data⟩ else ⟨.timeout, 0, 0⟩) s.res
          rd := (s.rd + 1) % s.cfg.n
          state := .idle
          cnt := 0 }
      else s1) := by
  rw [statusFrame, updateField_eq, retireByStatus, complete_eq, slotOf_beq]
  rfl

theorem classOfField_castSucc (c : Config) (k : Fin 8) : classOfField c k.castSucc = c.clsStatus[k] :=
  dif_pos k.isLt

theorem classOfField_eight (c : Config) : classOfField c 8 = c.clsFwver := dif_neg (by decide)

/-- The chain goes up by one and wraps at its end where the platform says so (R41). -/
theorem nextPoll_eq (c : Config) (k : Fin 8) :
    nextPoll c k = if k = 7 then (if c.chainWrap then some 0 else none) else some (k + 1) := by
  fin_cases k <;> rfl

/-- A chained poll that has a successor and may send it (R205). -/
theorem chainPoll_of_some {k j : Fin 8} (hnext : nextPoll s.cfg k = some j) (hsweep : s.sweepEn = true) :
    chainPoll k s =
      if (s.wr + 1) % s.cfg.n = s.rd then { s with err := s.err ||| 16 }
      else { s with
        q := s.q.set s.wr ⟨s.target, s.cfg.clsStatus[j], 0, 0, false, 0⟩
        wr := (s.wr + 1) % s.cfg.n } := by
  unfold chainPoll
  rw [hnext]
  dsimp only
  rw [if_pos hsweep]
  rcases push_cases s (bareEntry s.target s.cfg.clsStatus[j]) with ⟨hfull, hp⟩ | ⟨hroom, hp⟩
  · rw [hp, if_pos ((isFull_eq_true s).1 hfull)]
    rfl
  · rw [hp, if_neg ((isFull_eq_false s).1 hroom)]
    rfl

theorem chainPoll_of_none {k : Fin 8} (h : nextPoll s.cfg k = none) : chainPoll k s = s := by
  simp only [chainPoll, h]

theorem chainPoll_of_stopped {k : Fin 8} (h : s.sweepEn = false) : chainPoll k s = s := by
  unfold chainPoll
  cases nextPoll s.cfg k <;> simp [h]

/-- A valid expected length is a legal one (R114). -/
theorem expLen_le (hc : c.Valid) (k : Fin 9) : c.expLen[k] ≤ 8 := by
  obtain ⟨_, _, _, _, _, _, _, _, _, _, _, hlen⟩ := hc
  exact (hlen _ (by simp)).trans (by decide)

theorem exec_statusRow_of_expLen (hc : s.cfg.Valid) {k : Fin 8} (hlen : len.toNat = s.cfg.expLen[k.castSucc])
    (a : DevNo) (data : Payload) :
    exec (statusRow k a len data) s =
      .next (dispatch (chainPoll k (statusFrame k.castSucc a len data s))) := by
  rw [exec_statusRow, receive_of_le (hlen ▸ expLen_le hc _), rxStatus, if_pos hlen]

theorem exec_rxfFwver_of_expLen (hc : s.cfg.Valid) (hlen : len.toNat = s.cfg.expLen[(8 : Fin 9)])
    (a : DevNo) (data : Payload) :
    exec (.rxfFwver a len data) s = .next (dispatch (statusFrame 8 a len data s)) := by
  rw [exec_rxfFwver, receive_of_le (hlen ▸ expLen_le hc _), rxFwver, if_pos hlen]

theorem rxKind_clsUpdack (hc : c.Valid) : rxKind c c.clsUpdack = .updack := by
  have hindex : statusIndex c c.clsUpdack = none := statusIndex_eq_none_of_mem hc (by simp)
  have hne : c.clsUpdack ≠ c.clsFwver ∧ c.clsUpdack ≠ c.clsEnumReply ∧ c.clsUpdack ≠ c.clsAck := by
    have hnodup := singleClasses_nodup hc
    grind
  simp only [rxKind, hindex, hne, ↓reduceIte]

/-- The retirement moves `RD` away from where a full ring has `WR` run into it (R201). -/
theorem isFull_of_advanced (hs : RingOk s) (hne : s.wr ≠ s.rd) (hrd : t.rd = (s.rd + 1) % s.cfg.n)
    (hwr : t.wr = s.wr) (hc : t.cfg = s.cfg) : isFull t = false := by
  rw [isFull_eq_false, hwr, hc, hrd]
  intro h
  have hmod : s.wr ≡ s.rd [MOD s.cfg.n] := Nat.ModEq.add_right_cancel' 1 h
  exact hne (hmod.eq_of_lt_of_lt hs.wr_lt hs.rd_lt)

end

/-- Settles O31: every row tests the length before its action. -/
theorem reservedLengthDropsTheFrame : Obligations.ReservedLengthDropsTheFrame := by
  intro s len data hs hlen
  refine ⟨fun id => ?_, fun i hi => ?_⟩
  · rw [exec_rxf_eq_decodeRx, decodeRx_eq_receivedRow]
    exact exec_receivedRow_of_lt hs hlen _ _ _
  · obtain ⟨kind, cls, a, rfl⟩ := exists_receivedRow_of_framePayload hi
    exact exec_receivedRow_of_lt hs hlen kind cls a

/-- Settles O33: the field, the retirement and the chained poll of the row are the three updates of the statement, one
after the other. -/
theorem statusFrameHasItsEffect : Obligations.StatusFrameHasItsEffect := by
  intro s k a len data hc hlen old new s1 s2 successor s3
  have hframe : statusFrame k.castSucc a len data s = s2 := by
    rw [statusFrame_eq, classOfField_castSucc]
  have hchain : chainPoll k s2 = s3 := by
    obtain ⟨st, cnt, rd, fi, re, hs2⟩ := statusFrame_writes s k.castSucc a len data
    rw [hframe] at hs2
    have hnext : nextPoll s2.cfg k = successor := by
      rw [hs2]
      exact nextPoll_eq s.cfg k
    unfold s3
    clear_value s2 successor
    subst hs2
    cases successor with
    | none => exact chainPoll_of_none hnext
    | some j =>
      dsimp only
      split_ifs with hsweep hfull
      · exact (chainPoll_of_some hnext hsweep).trans (if_pos hfull)
      · exact (chainPoll_of_some hnext hsweep).trans (if_neg hfull)
      · exact chainPoll_of_stopped (Bool.eq_false_iff.2 hsweep)
  have hrow : exec (statusRow k a len data) s = .next (dispatch s3) := by
    rw [exec_statusRow_of_expLen hc hlen, hframe, hchain]
  exact ⟨hrow, (exec_rxf_identOf (rxKind_clsStatus hc k)).trans hrow⟩

/-- Settles O34: the same without a chained poll (R206). -/
theorem fwverFrameHasItsEffect : Obligations.FwverFrameHasItsEffect := by
  intro s a len data hc hlen old new s1 s2
  have hrow : exec (.rxfFwver a len data) s = .next (dispatch s2) := by
    rw [exec_rxfFwver_of_expLen hc hlen, statusFrame_eq, classOfField_eight]
  exact ⟨hrow, (exec_rxf_identOf (rxKind_clsFwver hc)).trans hrow⟩

/-- Settles O35: the retirement comes before the chained poll and leaves a free element behind. -/
theorem retiringReplyFindsRoom : Obligations.RetiringReplyFindsRoom := by
  intro s t k a len data hs hlen hstate hcls
  have hroom : isFull (statusFrame k.castSucc a len data s) = false := by
    refine isFull_of_advanced hs.ring (hs.busy_nonempty (by simp [hstate])) ?_ ?_ ?_
    all_goals
      rw [statusFrame_eq, classOfField_castSucc, if_pos ⟨hstate, hcls⟩]
  have herr : (chainPoll k (statusFrame k.castSucc a len data s)).err = s.err := by
    rw [← statusFrame_err a len data s k.castSucc]
    rcases chainPoll_cases (statusFrame k.castSucc a len data s) k with ⟨_, h⟩ | ⟨_, _, _, _, hp, h⟩ |
      ⟨_, _, _, hfull, _⟩
    · rw [h]
    · obtain ⟨_, rfl⟩ := push_eq_some hp
      rw [h]
    · rw [hroom] at hfull
      cases hfull
  have hrow : exec (statusRow k a len data) s = .next t → t.err = s.err := by
    rw [exec_statusRow_of_expLen hs.config hlen]
    rintro ⟨⟩
    rw [dispatch_err, herr]
  refine ⟨hrow, fun hx => hrow ?_⟩
  rw [← hx]
  exact (exec_rxf_identOf (rxKind_clsStatus hs.config k)).symm

/-- Settles O38: the flag is none of the components that `dispatch()` or the retirement read. -/
theorem updackSetsTheFlag : Obligations.UpdackSetsTheFlag := by
  intro s a len data hs hlen t
  have hflag : Inv { s with updack := true } := by
    have hsame : SameEngine s { s with updack := true } := {}
    exact (inv_iff _).2 ⟨hsame.engineOk hs.engineOk, hs.no_idle_work, hs.pres_zero, hs.target_ne⟩
  have hrow : exec (.rxfUpdack a len data) s = .next t := by
    change Host.Outcome.next (receive len rxUpdack s) = _
    rw [receive_of_le hlen, rxUpdack, rxAck, dispatch_ite_complete hflag]
    rfl
  exact ⟨hrow, (exec_rxf_identOf (rxKind_clsUpdack hs.config)).trans hrow⟩

end Sys2Proof.Machine

/-! The event words and the second-level rows read back (R106, R107, R110, R111, R124), the byte order of a status value
(R71), and the order of simultaneous events (R242). -/

namespace Sys2Proof

open Machine

/-! ## Event words (R106, R107, R124) -/

theorem decode_encode (c : Config) (i : Instr) : decode (encode c i) = decodeFields (encodeFields c i) := by
  rw [decode, encode, EventFields.ofWord_toWord]

theorem requireUnused_eq_ok_iff (z : Bool) (x : Except Reject Instr) (i : Instr) :
    requireUnused z x = .ok i ↔ z = true ∧ x = .ok i := by
  cases z <;> simp [requireUnused]

theorem requirePayload_eq_ok_iff (f : EventFields) (i j : Instr) :
    requirePayload f i = .ok j ↔ payloadOk f.len f.data = true ∧ i = j := by
  cases h : payloadOk f.len f.data <;> simp [requirePayload, h]

/-- CLRERR's mask stands in the lowest six payload bits (R107). -/
theorem setWidth_extractLsb'_mask (m : BitVec 6) :
    (m.setWidth 64).extractLsb' 6 58 = 0 ∧ (m.setWidth 64).extractLsb' 0 6 = m := by
  constructor
  · apply BitVec.eq_of_getLsbD_eq
    intro i hi
    simp
  · apply BitVec.eq_of_getLsbD_eq
    intro i hi
    simp [hi, show i < 64 by omega]

theorem mask_setWidth_of_extractLsb' {data : Payload} (h : data.extractLsb' 6 58 = 0) :
    (data.extractLsb' 0 6).setWidth 64 = data := by
  apply BitVec.eq_of_getLsbD_eq
  intro i hi
  by_cases hlow : i < 6
  · simp [hlow, hi]
  · have hbit : (data.extractLsb' 6 58).getLsbD (i - 6) = false := by
      rw [h]
      exact BitVec.getLsbD_zero
    rw [BitVec.getLsbD_extractLsb', Nat.add_sub_of_le (Nat.not_lt.1 hlow), decide_eq_true (by omega),
      Bool.true_and] at hbit
    rw [hbit]
    simp [hlow]

theorem ofBool_beq_one (b : Bool) : (BitVec.ofBool b == 1) = b := by cases b <;> rfl

theorem ofBool_of_beq_one : ∀ b : BitVec 1, BitVec.ofBool (b == 1) = b := by decide

theorem identOf_zero_of_classOf {id : Ident} (h : classOf id = 0) : identOf 0 (devNoOf id) = id := by
  rw [← h, identOf_classOf_devNoOf]

/-- Each row's fields, read by the decoder, are the row again. -/
theorem decodeFields_encodeFields (c : Config) (i : Instr) (hev : i.isEvent = true) (hwf : i.wellFormed c = true) :
    decodeFields (encodeFields c i) = .ok i := by
  cases i with
  | tick => rfl
  | txc => rfl
  | rxf id len data => exact (requireUnused_eq_ok_iff ..).2 ⟨rfl, (requirePayload_eq_ok_iff ..).2 ⟨hwf, rfl⟩⟩
  | enq cls a len data =>
    refine (requireUnused_eq_ok_iff ..).2 ⟨rfl, (requirePayload_eq_ok_iff ..).2 ⟨hwf, ?_⟩⟩
    simp only [encodeFields, classOf_identOf, devNoOf_identOf]
  | enqr cls a len data r =>
    refine (requireUnused_eq_ok_iff ..).2 ⟨rfl, (requirePayload_eq_ok_iff ..).2 ⟨hwf, ?_⟩⟩
    simp only [encodeFields, classOf_identOf, devNoOf_identOf]
  | setaddr a =>
    refine (requireUnused_eq_ok_iff ..).2 ⟨?_, ?_⟩
    · simp only [encodeFields, classOf_identOf]
      rfl
    · simp only [encodeFields, devNoOf_identOf]
  | enum => rfl
  | sweep b => exact congrArg (Except.ok ∘ Instr.sweep) (ofBool_beq_one b)
  | rdstat k => rfl
  | rdpres => rfl
  | rdres r => rfl
  | takeupd => rfl
  | rdreg n => rfl
  | clrerr m =>
    obtain ⟨hhigh, hlow⟩ := setWidth_extractLsb'_mask m
    refine (requireUnused_eq_ok_iff ..).2 ⟨?_, ?_⟩
    · simp only [encodeFields, hhigh]
      rfl
    · simp only [encodeFields, hlow]
  | reserved14 => cases hwf
  | reset => rfl
  | _ => cases hev

/-- Fields that the decoder accepts are those of the row it reads: it drops none of them (R124). -/
theorem encodeFields_of_decodeFields (c : Config) {f : EventFields} {i : Instr} (h : decodeFields f = .ok i) :
    i.isEvent = true ∧ i.wellFormed c = true ∧ encodeFields c i = f := by
  obtain ⟨op, id, len, data, rslot, b⟩ := f
  rcases opcode_cases op with
    rfl | rfl | rfl | rfl | rfl | rfl | rfl | rfl | rfl | rfl | rfl | rfl | rfl | rfl | rfl | rfl
  all_goals
    simp only [decodeFields, requireUnused_eq_ok_iff, requirePayload_eq_ok_iff, Bool.and_eq_true, beq_iff_eq,
      BitVec.reduceToNat, Except.ok.injEq, and_assoc] at h
  · obtain ⟨rfl, rfl, rfl, rfl, rfl, rfl⟩ := h
    exact ⟨rfl, rfl, rfl⟩
  · obtain ⟨rfl, rfl, rfl, rfl, rfl, rfl⟩ := h
    exact ⟨rfl, rfl, rfl⟩
  · obtain ⟨rfl, rfl, hwf, rfl⟩ := h
    exact ⟨rfl, hwf, rfl⟩
  · obtain ⟨rfl, rfl, hwf, rfl⟩ := h
    exact ⟨rfl, hwf, by rw [encodeFields, identOf_classOf_devNoOf]⟩
  · obtain ⟨rfl, hwf, rfl⟩ := h
    exact ⟨rfl, hwf, by rw [encodeFields, identOf_classOf_devNoOf]⟩
  · obtain ⟨hcls, rfl, rfl, rfl, rfl, rfl⟩ := h
    exact ⟨rfl, rfl, by rw [encodeFields, identOf_zero_of_classOf hcls]⟩
  · obtain ⟨rfl, rfl, rfl, rfl, rfl, rfl⟩ := h
    exact ⟨rfl, rfl, rfl⟩
  · obtain ⟨rfl, rfl, rfl, rfl, rfl⟩ := h
    exact ⟨rfl, rfl, by rw [encodeFields, ofBool_of_beq_one]⟩
  · obtain ⟨rfl, rfl, rfl, rfl, rfl⟩ := h
    exact ⟨rfl, rfl, rfl⟩
  · obtain ⟨rfl, rfl, rfl, rfl, rfl, rfl⟩ := h
    exact ⟨rfl, rfl, rfl⟩
  · obtain ⟨rfl, rfl, rfl, rfl, rfl⟩ := h
    exact ⟨rfl, rfl, rfl⟩
  · obtain ⟨rfl, rfl, rfl, rfl, rfl, rfl⟩ := h
    exact ⟨rfl, rfl, rfl⟩
  · obtain ⟨rfl, rfl, rfl, rfl, rfl⟩ := h
    exact ⟨rfl, rfl, rfl⟩
  · obtain ⟨rfl, rfl, hmask, rfl, rfl, rfl⟩ := h
    exact ⟨rfl, rfl, by rw [encodeFields, mask_setWidth_of_extractLsb' hmask]⟩
  · cases h
  · obtain ⟨rfl, rfl, rfl, rfl, rfl, rfl⟩ := h
    exact ⟨rfl, rfl, rfl⟩

/-- Settles O1: word and fields are inverse to one another, so the fields of the row are all there is to read. -/
theorem decodeInvertsEncode : Obligations.DecodeInvertsEncode := by
  intro c i hev hwf
  rw [decode_encode, decodeFields_encodeFields c i hev hwf]

/-- Settles O2: the word is its fields, and the fields are those of the instruction. -/
theorem encodeInvertsDecode : Obligations.EncodeInvertsDecode := by
  intro c w i h
  obtain ⟨hev, hwf, hfields⟩ := encodeFields_of_decodeFields c h
  exact ⟨hev, hwf, by rw [encode, hfields, EventFields.toWord_ofWord]⟩

/-- Settles O5: the decoder evaluates each of the seven words. -/
theorem specWordsDecode : Obligations.SpecWordsDecode := by
  refine ⟨?_, ?_, ?_, ?_, ?_, ?_, ?_⟩ <;> decide

/-- Settles O13: no state and no bit is looked at. -/
theorem reservedOpcodeIsRefused : Obligations.ReservedOpcodeIsRefused := fun _ _ => rfl

/-! ## The second-level rows (R110 to R112) -/

section

variable {c : Config}

/-- The row of a kind of received frame is read back from the identifier of its class. -/
theorem decodeRx_identOf {kind : RxKind} {cls : Cls} (h : rxKind c cls = kind) (a : DevNo) (len : Len)
    (data : Payload) : decodeRx c (identOf cls a) len data = receivedRow kind cls a len data := by
  rw [decodeRx_eq_receivedRow, classOf_identOf, devNoOf_identOf, h]

theorem decodeRx_encodeIdent {i : Instr} {len : Len} {data : Payload} (hc : c.Valid) (hwf : i.wellFormed c = true)
    (hi : framePayload i = some (len, data)) : decodeRx c (encodeIdent c i) len data = i := by
  cases i with
  | rxfStatusVout a _ _ => cases hi; exact decodeRx_identOf (rxKind_clsStatus hc 0) a len data
  | rxfStatusVbus a _ _ => cases hi; exact decodeRx_identOf (rxKind_clsStatus hc 1) a len data
  | rxfStatusCurrent a _ _ => cases hi; exact decodeRx_identOf (rxKind_clsStatus hc 2) a len data
  | rxfStatusTemp a _ _ => cases hi; exact decodeRx_identOf (rxKind_clsStatus hc 3) a len data
  | rxfStatusPosition a _ _ => cases hi; exact decodeRx_identOf (rxKind_clsStatus hc 4) a len data
  | rxfStatusSpeed a _ _ => cases hi; exact decodeRx_identOf (rxKind_clsStatus hc 5) a len data
  | rxfStatusLimit a _ _ => cases hi; exact decodeRx_identOf (rxKind_clsStatus hc 6) a len data
  | rxfStatusFault a _ _ => cases hi; exact decodeRx_identOf (rxKind_clsStatus hc 7) a len data
  | rxfFwver a _ _ => cases hi; exact decodeRx_identOf (rxKind_clsFwver hc) a len data
  | rxfEnumReply a _ _ => cases hi; exact decodeRx_identOf (rxKind_clsEnumReply hc) a len data
  | rxfAck a _ _ => cases hi; exact decodeRx_identOf (rxKind_clsAck hc) a len data
  | rxfUpdack a _ _ => cases hi; exact decodeRx_identOf (rxKind_clsUpdack hc) a len data
  | rxfOther cls a _ _ =>
    cases hi
    have hkind : rxKind c cls = .other := beq_iff_eq.1 (Bool.and_eq_true_iff.1 hwf).2
    exact decodeRx_identOf hkind a len data
  | _ => cases hi

/-- An untagged class is its API class (R103). -/
theorem extractLsb'_setWidth_api (api : BitVec 10) : (api.setWidth 23).extractLsb' 0 10 = api := by
  apply BitVec.eq_of_getLsbD_eq
  intro i hi
  simp [hi, show i < 23 by omega]

theorem decodeTx_encodeIdent {i : Instr} (hwf : i.wellFormed c = true) (hi : isSentRow i = true) :
    decodeTx c (encodeIdent c i) = i := by
  cases i with
  | txcEnum a => exact decodeTx_of_enum (txKind_clsEnum c) a
  | txcUntagged api a =>
    refine (decodeTx_of_noAck (beq_iff_eq.1 hwf) a).trans ?_
    rw [extractLsb'_setWidth_api]
  | txcTaggedLongDl a =>
    obtain ⟨cls, hhead, hkind⟩ := (Option.any_eq_true ..).1 hwf
    have hcls : c.updLong.headD 0 = cls := by rw [List.headD_eq_head?_getD, hhead, Option.getD_some]
    refine (decodeTx_of_ackLong (cls := c.updLong.headD 0) ?_ a).trans ?_
    · rw [hcls]
      exact beq_iff_eq.1 hkind
    · rw [hcls, if_pos hhead]
  | txcTaggedLongSd cls a =>
    obtain ⟨hkind, hhead⟩ := Bool.and_eq_true_iff.1 hwf
    exact (decodeTx_of_ackLong (beq_iff_eq.1 hkind) a).trans (if_neg (bne_iff_ne.1 hhead))
  | txcTagged cls a => exact decodeTx_of_ack (beq_iff_eq.1 hwf) a
  | _ => cases hi

end

/-- Settles O4: the class of a row's identifier is of the row's kind, by R113 or by well-formedness. -/
theorem secondLevelRowsRoundTrip : Obligations.SecondLevelRowsRoundTrip :=
  ⟨fun _ _ _ _ hc hwf hi => decodeRx_encodeIdent hc hwf hi, fun _ _ hwf hi => decodeTx_encodeIdent hwf hi⟩

end Sys2Proof

namespace Sys2Proof.Machine

/-! ## The value of a status frame (R71, R72) -/

theorem byteOf_toNat (data : Payload) (i : Nat) : (byteOf data i).toNat = data.toNat / 256 ^ i % 256 := by
  rw [byteOf, BitVec.extractLsb'_toNat, Nat.shiftRight_eq_div_pow, pow_mul, show 2 ^ 8 = 256 from rfl]

/-- The bytes are the digits of the payload to the base 256. -/
theorem le_eq_mod (data : Payload) (n : Nat) : le data n = data.toNat % 256 ^ n := by
  induction n with
  | zero => rw [le, pow_zero, Nat.mod_one]
  | succ n ih => rw [le, ih, byteOf_toNat, pow_succ, Nat.mod_mul, Nat.mul_comm]

/-- Settles O7: four bytes are no more than the 32 bits of the value. -/
theorem statusValueIsLittleEndian : Obligations.StatusValueIsLittleEndian := by
  intro data len hlen
  have hfits : data.toNat % 256 ^ len.toNat < 2 ^ 32 :=
    calc data.toNat % 256 ^ len.toNat < 256 ^ len.toNat := Nat.mod_lt _ (by positivity)
      _ ≤ 256 ^ 4 := Nat.pow_le_pow_right (by decide) hlen
      _ = 2 ^ 32 := by decide
  rw [decodeValue, le_eq_mod, BitVec.toNat_ofNat, Nat.mod_eq_of_lt hfits]

/-! ## Simultaneous events (R242) -/

theorem priority_eq_instantRank (w : EventWord) : priority w = instantRank w := by
  unfold priority instantRank
  generalize w.extractLsb' 100 4 = op
  revert op
  decide

/-- `pickFirst` takes the first of the words of the best place. -/
theorem pickFirst_cons (w : EventWord) (ws : List EventWord) : ∃ before v after, w :: ws = before ++ v :: after ∧
    pickFirst (w :: ws) = some (v, before ++ after) ∧ (∀ x ∈ before, priority v < priority x) ∧
    ∀ x ∈ after, priority v ≤ priority x := by
  induction ws generalizing w with
  | nil => exact ⟨[], w, [], rfl, rfl, nofun, nofun⟩
  | cons w' ws ih =>
    obtain ⟨before, v, after, hsplit, hpick, hbefore, hafter⟩ := ih w'
    by_cases hle : priority w ≤ priority v
    · refine ⟨[], w, w' :: ws, rfl, ?_, nofun, fun x hx => ?_⟩
      · rw [pickFirst, hpick]
        exact if_pos hle
      · rw [hsplit, List.mem_append, List.mem_cons] at hx
        rcases hx with hx | rfl | hx
        · exact hle.trans (hbefore x hx).le
        · exact hle
        · exact hle.trans (hafter x hx)
    · refine ⟨w :: before, v, after, by rw [hsplit, List.cons_append], ?_, fun x hx => ?_, hafter⟩
      · rw [pickFirst, hpick]
        exact if_neg hle
      · rcases List.mem_cons.1 hx with rfl | hx
        · exact Nat.not_le.1 hle
        · exact hbefore x hx

/-- Settles O11: an empty instant is passed over, and of another the word that `pickFirst` takes is fetched. -/
theorem simultaneousEventsInFixedOrder : Obligations.SimultaneousEventsInFixedOrder := by
  intro s now later hinput
  refine ⟨fun hnow => ?_, fun hnow => ?_⟩
  · subst hnow
    simp only [fetch, hinput, takeInput, pickFirst]
  · obtain ⟨w, ws, rfl⟩ := List.exists_cons_of_ne_nil hnow
    obtain ⟨before, v, after, hsplit, hpick, hbefore, hafter⟩ := pickFirst_cons w ws
    refine ⟨before, v, after, hsplit, ?_, fun x hx => ?_, fun x hx => ?_⟩
    · simp only [fetch, hinput, takeInput, hpick]
    · rw [← priority_eq_instantRank, ← priority_eq_instantRank]
      exact hbefore x hx
    · rw [← priority_eq_instantRank, ← priority_eq_instantRank]
      exact hafter x hx

end Sys2Proof.Machine

/-! Every event has an outcome (R13), and no rule but RDREG 7 reads `ERR` (R38). -/

namespace Sys2Proof.Machine

/-! ## Totality and results (R13, R107) -/

section

variable {i : Instr} {s t : State}

theorem exec_sentRow_total (s : State) (hi : isSentRow i = true) : ∃ t, exec i s = .next t := by
  cases i with
  | txcEnum => exact ⟨_, rfl⟩
  | txcUntagged => exact ⟨_, rfl⟩
  | txcTaggedLongDl => exact ⟨_, rfl⟩
  | txcTaggedLongSd => exact ⟨_, rfl⟩
  | txcTagged => exact ⟨_, rfl⟩
  | _ => cases hi

theorem exec_total (s : State) (hi : eventOf i ≠ .reserved14) : ∃ t, exec i s = .next t := by
  cases i with
  | reserved14 => exact absurd rfl hi
  | txc =>
    rcases exec_txc_cases s with ⟨row, hrow, h⟩ | h
    · obtain ⟨t, ht⟩ := exec_sentRow_total s hrow
      exact ⟨t, h.trans ht⟩
    · exact ⟨_, h⟩
  | rxf id len data => exact ⟨_, (exec_rxf_eq_decodeRx s id len data).trans (by
      rw [decodeRx_eq_receivedRow, exec_receivedRow])⟩
  | _ => exact ⟨_, rfl⟩

/-- Each foreground event returns one result, no other event any (R107). -/
theorem hostOut_of_exec (hx : exec i s = .next t) :
    (eventOf i).context ≠ .foreground ∧ t.hostOut = s.hostOut ∨
    (eventOf i).context = .foreground ∧ ∃ r, t.hostOut = s.hostOut ++ [r] := by
  cases writes_of_exec hx with
  | tick hi => exact .inl ⟨by rw [hi]; nofun, rfl⟩
  | sent hi => exact .inl ⟨by rw [hi]; nofun, rfl⟩
  | received hi => exact .inl ⟨by rw [hi]; nofun, rfl⟩
  | enq hi ht => obtain ⟨_, _, _, _, _, _, _, r, rfl⟩ := ht; exact .inr ⟨by rw [hi]; rfl, r, rfl⟩
  | enqr hi ht => obtain ⟨_, _, _, _, _, _, _, r, rfl⟩ := ht; exact .inr ⟨by rw [hi]; rfl, r, rfl⟩
  | setaddr hi _ ht => obtain ⟨_, _, _, _, _, _, _, r, rfl⟩ := ht; exact .inr ⟨by rw [hi]; rfl, r, rfl⟩
  | enum hi ht => obtain ⟨_, _, _, _, _, _, _, r, rfl⟩ := ht; exact .inr ⟨by rw [hi]; rfl, r, rfl⟩
  | answered hi => exact .inr ⟨hi, _, rfl⟩
  | refused hi => exact .inr ⟨by rcases hi with hi | hi | hi | hi | hi | hi <;> rw [hi] <;> rfl, _, rfl⟩
  | sweep hi => exact .inr ⟨by rw [hi]; rfl, _, rfl⟩
  | takeupd hi => exact .inr ⟨by rw [hi]; rfl, _, rfl⟩
  | clrerr hi => exact .inr ⟨by rw [hi]; rfl, _, rfl⟩
  | reset hi ht =>
    cases ht
    exact .inl ⟨by rw [hi]; nofun, rfl⟩

end

/-- Settles O12: only the reserved opcode refuses, and the context of an event says whether it answers. -/
theorem everyEventHasOneNextState : Obligations.EveryEventHasOneNextState := by
  intro s i hi
  obtain ⟨t, hx⟩ := exec_total s hi
  rcases hostOut_of_exec hx with ⟨hctx, hout⟩ | ⟨hctx, r, hout⟩
  · exact ⟨t, [], hx, by rw [hout, List.append_nil], by simp, by simp [hctx]⟩
  · exact ⟨t, [r], hx, hout, le_refl _, by simp [hctx]⟩

/-! ## `ERR` is written under a mask and not read (R38) -/

/-- The state with another `ERR`. -/
def withErr (e : BitVec 6) (s : State) : State := { s with err := e }

/-- From `s`, whatever its `ERR`, `f` sets the bits of one mask in `ERR` and does the same otherwise: it does not read
`ERR`, and it clears no bit of it. -/
def MasksErr (f : State → State) (s : State) : Prop :=
  ∃ m : BitVec 6, ∀ e : BitVec 6, f (withErr e s) = withErr (e ||| m) (f s)

section

variable {f g : State → State} {s : State}

theorem MasksErr.of_eq (h : ∀ e, f (withErr e s) = withErr e (f s)) : MasksErr f s :=
  ⟨0, fun e => by rw [h, show e ||| 0 = e from BitVec.or_zero]⟩

theorem MasksErr.comp (hf : MasksErr f s) (hg : MasksErr g (f s)) : MasksErr (fun u => g (f u)) s := by
  obtain ⟨m, hm⟩ := hf
  obtain ⟨n, hn⟩ := hg
  exact ⟨m ||| n, fun e => by dsimp only; rw [hm, hn, BitVec.or_assoc]⟩

/-- Functions that agree on the states that differ from `s` in `ERR` alone, `s` among them. -/
theorem MasksErr.congr (hg : MasksErr g s) (h : ∀ e, f (withErr e s) = g (withErr e s)) : MasksErr f s := by
  obtain ⟨m, hm⟩ := hg
  have hs : f s = g s := h s.err
  exact ⟨m, fun e => by rw [h, hm, hs]⟩

/-- A test that does not read `ERR`. -/
theorem MasksErr.ite {p : State → Prop} [DecidablePred p] (hp : ∀ e, p (withErr e s) ↔ p s) (hf : MasksErr f s)
    (hg : MasksErr g s) : MasksErr (fun u => if p u then f u else g u) s := by
  by_cases h : p s
  · exact hf.congr fun e => if_pos ((hp e).2 h)
  · exact hg.congr fun e => if_neg ((hp e).not.2 h)

/-! ### The shared operations -/

theorem masksErr_raise (x : ErrorOutcome) (s : State) : MasksErr (raise x) s := ⟨x.mask, fun _ => rfl⟩

theorem masksErr_answer (r : HostResult) (s : State) : MasksErr (answer r) s := .of_eq fun _ => rfl

theorem masksErr_refuseArg (s : State) : MasksErr refuseArg s := (masksErr_raise .badArg s).comp (masksErr_answer ..)

theorem masksErr_dispatch (s : State) : MasksErr dispatch s := by
  refine .of_eq fun e => ?_
  rcases dispatch_cases s with ⟨hs, hne, hc, h⟩ | ⟨hno, h⟩
  · rw [h, dispatch_of_work (s := withErr e s) hs hne hc]
    rfl
  · rw [h, dispatch_of_not (s := withErr e s) hno]

theorem masksErr_sendTimeout (s : State) : MasksErr sendTimeout s :=
  ⟨ErrorOutcome.sendTimeout.mask, fun e => by rw [sendTimeout, sendTimeout, recover_eq, recover_eq]; rfl⟩

theorem masksErr_ackTimeout (s : State) : MasksErr ackTimeout s :=
  ⟨ErrorOutcome.ackTimeout.mask, fun e => by rw [ackTimeout, ackTimeout, recover_eq, recover_eq]; rfl⟩

theorem masksErr_expire (s : State) : MasksErr expire s := by
  cases hs : s.state with
  | idle => exact MasksErr.congr (g := id) (.of_eq fun _ => rfl) fun e => by simp only [expire, withErr, hs, id]
  | waitForSend => exact (masksErr_sendTimeout s).congr fun e => by simp only [expire, withErr, hs]
  | waitForAck => exact (masksErr_ackTimeout s).congr fun e => by simp only [expire, withErr, hs]

theorem masksErr_countDown (s : State) : MasksErr countDown s :=
  .ite (p := fun u => u.cnt = 0) (fun _ => .rfl) (.of_eq fun _ => rfl) <|
    .ite (p := fun u => u.cnt = 1) (fun _ => .rfl)
      (.comp (f := fun u => { u with cnt := 0 }) (.of_eq fun _ => rfl) (masksErr_expire _)) (.of_eq fun _ => rfl)

/-! ### TXC (R181 to R184) -/

theorem masksErr_txComplete {action : State → State} (h : ∀ u, MasksErr action u) (s : State) :
    MasksErr (txComplete action) s := by
  have hfree : MasksErr (fun u => action { u with txslot := { u.txslot with v := false } }) s :=
    .comp (.of_eq fun _ => rfl) (h _)
  have hskip : MasksErr (fun u => u) s := .of_eq fun _ => rfl
  have htest := MasksErr.ite (p := fun u => u.state = .waitForSend) (fun _ => .rfl) hfree hskip
  exact htest.comp (masksErr_dispatch _)

theorem masksErr_retireTo (load : State → Nat) (hload : ∀ e u, load (withErr e u) = load u) (s : State) :
    MasksErr (fun u => toIdle (load u) (retire false 0 0 u)) s :=
  .of_eq fun e => by
    rw [hload, retire_eq_slotsAfter, retire_eq_slotsAfter]
    rfl

/-! ### RXF (R200 to R210) -/

theorem masksErr_ite_complete {p : State → Prop} [DecidablePred p] (hp : ∀ e u, p (withErr e u) ↔ p u)
    {ok : State → Bool} (hok : ∀ e u, ok (withErr e u) = ok u) (len : Len) (data : Payload) (s : State) :
    MasksErr (fun u => if p u then complete (ok u) len data u else u) s :=
  .ite (fun e => hp e s) (.of_eq fun e => by rw [hok, complete_eq, complete_eq]; rfl) (.of_eq fun _ => rfl)

theorem masksErr_updateField (k : Fin 9) (a : DevNo) (len : Len) (data : Payload) (s : State) :
    MasksErr (updateField k a len data) s :=
  .ite (p := fun u => a = u.target) (fun _ => .rfl) (.of_eq fun _ => rfl) (.of_eq fun _ => rfl)

theorem masksErr_statusFrame (k : Fin 9) (a : DevNo) (len : Len) (data : Payload) (s : State) :
    MasksErr (statusFrame k a len data) s := by
  have hretire : MasksErr (fun u => retireByStatus (classOfField u.cfg k) a len data u) (updateField k a len data s) :=
    masksErr_ite_complete (p := fun u => u.state = .waitForAck ∧ (head u).cls = classOfField u.cfg k)
      (fun _ _ => .rfl) (ok := fun u => a == (head u).addr) (fun _ _ => rfl) len data _
  refine ((masksErr_updateField k a len data s).comp hretire).congr fun e => ?_
  rw [statusFrame, updateField_cfg]

theorem masksErr_chainPoll (k : Fin 8) (s : State) : MasksErr (chainPoll k) s := by
  cases hnext : nextPoll s.cfg k with
  | none => exact MasksErr.congr (g := id) (.of_eq fun _ => rfl) fun e => chainPoll_of_none hnext
  | some j =>
    cases hsweep : s.sweepEn with
    | false => exact MasksErr.congr (g := id) (.of_eq fun _ => rfl) fun e => chainPoll_of_stopped hsweep
    | true =>
      by_cases hfull : (s.wr + 1) % s.cfg.n = s.rd
      · exact (masksErr_raise .chainDrop s).congr fun e =>
          (chainPoll_of_some (s := withErr e s) hnext hsweep).trans (if_pos hfull)
      · refine MasksErr.congr (g := fun u => { u with
          q := u.q.set u.wr ⟨u.target, u.cfg.clsStatus[j], 0, 0, false, 0⟩
          wr := (u.wr + 1) % u.cfg.n }) (.of_eq fun _ => rfl) fun e => ?_
        exact (chainPoll_of_some (s := withErr e s) hnext hsweep).trans (if_neg hfull)

theorem masksErr_receivedAction (kind : RxKind) (cls : Cls) (a : DevNo) (len : Len) (data : Payload) (s : State) :
    MasksErr (receivedAction kind cls a len data) s := by
  cases kind with
  | status k =>
    exact .ite (p := fun u => len.toNat = u.cfg.expLen[k.castSucc]) (fun _ => .rfl)
      (.comp (masksErr_statusFrame k.castSucc a len data s) (masksErr_chainPoll k _)) (masksErr_raise ..)
  | fwver =>
    exact .ite (p := fun u => len.toNat = u.cfg.expLen[(8 : Fin 9)]) (fun _ => .rfl)
      (masksErr_statusFrame 8 a len data s) (masksErr_raise ..)
  | enumReply =>
    exact .ite (p := fun u => settling u = true ∧ a ≠ 0) (fun _ => .rfl) (.of_eq fun _ => rfl) (.of_eq fun _ => rfl)
  | ack =>
    exact masksErr_ite_complete (p := fun u => u.state = .waitForAck) (fun _ _ => .rfl)
      (ok := fun _ => false) (fun _ _ => rfl) 0 0 s
  | updack =>
    exact .comp (f := fun u => { u with updack := true }) (.of_eq fun _ => rfl)
      (masksErr_ite_complete (p := fun u => u.state = .waitForAck) (fun _ _ => .rfl)
        (ok := fun _ => false) (fun _ _ => rfl) 0 0 _)
  | other =>
    exact masksErr_ite_complete (p := fun u => u.state = .waitForAck ∧ (head u).cls = cls ∧ (head u).addr = a)
      (fun _ _ => .rfl) (ok := fun _ => true) (fun _ _ => rfl) len data s

theorem masksErr_receive {action : State → State} (len : Len) (h : MasksErr action s) :
    MasksErr (receive len action) s := by
  have htest := MasksErr.ite (p := fun _ => lenReserved len = true) (fun _ => .rfl)
    (masksErr_raise .malformedResponse s) h
  exact htest.comp (masksErr_dispatch _)

/-! ### Host operations (R140 to R149) -/

/-- `push` neither reads nor writes `ERR` (R77). -/
theorem push_withErr (e : BitVec 6) (x : QEntry) (s : State) :
    push x (withErr e s) = (push x s).map (withErr e) := by
  change (if isFull s then none else _) = Option.map _ (if isFull s then none else _)
  split_ifs <;> rfl

theorem masksErr_hostEnqueue (x : QEntry) (s : State) : MasksErr (hostEnqueue x) s := by
  cases hp : push x s with
  | none =>
    refine MasksErr.congr ((masksErr_raise .queueFull s).comp (masksErr_answer .queueFull _)) fun e => ?_
    simp only [hostEnqueue, push_withErr, hp, Option.map_none]
  | some t =>
    obtain ⟨m, hm⟩ := (masksErr_dispatch t).comp (masksErr_answer .ok _)
    refine ⟨m, fun e => ?_⟩
    simp only [hostEnqueue, push_withErr, hp, Option.map_some]
    exact hm e

theorem masksErr_engineEnqueue (x : QEntry) (s : State) : MasksErr (engineEnqueue x) s := by
  cases hp : push x s with
  | none =>
    refine MasksErr.congr (((masksErr_raise .queueFull s).comp (masksErr_dispatch _)).comp
      (masksErr_answer .queueFull _)) fun e => ?_
    simp only [engineEnqueue, push_withErr, hp, Option.map_none]
  | some t =>
    obtain ⟨m, hm⟩ := (masksErr_dispatch t).comp (masksErr_answer .ok _)
    refine ⟨m, fun e => ?_⟩
    simp only [engineEnqueue, push_withErr, hp, Option.map_some]
    exact hm e

end

/-! ### Events -/

section

variable {i : Instr} {s t : State} {f : State → State}

/-- The event answers what some `MasksErr` function gives, whatever the `ERR` it starts from. -/
def EventMasksErr (i : Instr) (s : State) : Prop :=
  ∃ f, MasksErr f s ∧ ∀ e, exec i (withErr e s) = .next (f (withErr e s))

theorem eventMasksErr_receivedRow (kind : RxKind) (cls : Cls) (a : DevNo) (len : Len) (data : Payload) (s : State) :
    EventMasksErr (receivedRow kind cls a len data) s :=
  ⟨_, masksErr_receive len (masksErr_receivedAction kind cls a len data s), fun _ => exec_receivedRow ..⟩

/-- The event RXF or a row of it. -/
theorem eq_rxf_or_receivedRow (hi : eventOf i = .rxf) :
    (∃ id len data, i = .rxf id len data) ∨ ∃ kind cls a len data, i = receivedRow kind cls a len data := by
  cases hp : framePayload i with
  | some p =>
    obtain ⟨len, data⟩ := p
    obtain ⟨kind, cls, a, h⟩ := exists_receivedRow_of_framePayload hp
    exact .inr ⟨kind, cls, a, len, data, h⟩
  | none =>
    cases i with
    | rxf id len data => exact .inl ⟨id, len, data, rfl⟩
    | _ => simp_all [eventOf, framePayload]

/-- The classification of a received frame reads the parameters only (R110). -/
theorem eventMasksErr_of_rxf (hi : eventOf i = .rxf) (s : State) : EventMasksErr i s := by
  rcases eq_rxf_or_receivedRow hi with ⟨id, len, data, rfl⟩ | ⟨kind, cls, a, len, data, rfl⟩
  · obtain ⟨f, hf, hx⟩ :=
      eventMasksErr_receivedRow (rxKind s.cfg (classOf id)) (classOf id) (devNoOf id) len data s
    refine ⟨f, hf, fun e => ?_⟩
    rw [exec_rxf_eq_decodeRx, decodeRx_eq_receivedRow]
    exact hx e
  · exact eventMasksErr_receivedRow kind cls a len data s

theorem eventMasksErr_of_sentRow (hi : isSentRow i = true) (s : State) : EventMasksErr i s := by
  cases i with
  | txcEnum a =>
    exact ⟨_, masksErr_txComplete (masksErr_retireTo (fun u => u.cfg.tSettle) fun _ _ => rfl) s, fun _ => rfl⟩
  | txcUntagged api a =>
    exact ⟨_, masksErr_txComplete (masksErr_retireTo (fun _ => 0) fun _ _ => rfl) s, fun _ => rfl⟩
  | txcTaggedLongDl a => exact ⟨_, masksErr_txComplete (fun u => .of_eq fun _ => rfl) s, fun _ => rfl⟩
  | txcTaggedLongSd cls a => exact ⟨_, masksErr_txComplete (fun u => .of_eq fun _ => rfl) s, fun _ => rfl⟩
  | txcTagged cls a => exact ⟨_, masksErr_txComplete (fun u => .of_eq fun _ => rfl) s, fun _ => rfl⟩
  | _ => cases hi

theorem isSentRow_decodeTx (c : Config) (cls : Cls) (a : DevNo) : isSentRow (decodeTx c (identOf cls a)) = true := by
  cases h : txKind c cls with
  | enum => rw [decodeTx_of_enum h]; rfl
  | noAck => rw [decodeTx_of_noAck h]; rfl
  | ackLong =>
    rw [decodeTx_of_ackLong h]
    split_ifs <;> rfl
  | ack => rw [decodeTx_of_ack h]; rfl

/-- Neither does the classification of the frame just sent, which reads the head (R111). -/
theorem eventMasksErr_txc (s : State) : EventMasksErr .txc s := by
  by_cases hs : s.state = .waitForSend
  · obtain ⟨f, hf, hx⟩ := eventMasksErr_of_sentRow (isSentRow_decodeTx s.cfg (head s).cls (head s).addr) s
    exact ⟨f, hf, fun e => (exec_txc_of_waitForSend (s := withErr e s) hs).trans (hx e)⟩
  · exact ⟨dispatch, masksErr_dispatch s, fun e => exec_txc_of_ne (s := withErr e s) hs⟩

/-- An operation with an operand test before it. -/
theorem MasksErr.refuseOr (b : Bool) (hf : MasksErr f s) : MasksErr (fun u => if b then refuseArg u else f u) s :=
  .ite (p := fun _ => b = true) (fun _ => .rfl) (masksErr_refuseArg s) hf

theorem eventMasksErr_enqr (cls : Cls) (a : DevNo) (len : Len) (data : Payload) (r : SlotIx) (s : State) :
    EventMasksErr (.enqr cls a len data r) s := by
  have hfull : MasksErr (fun u => answer .queueFull (raise .queueFull u)) s :=
    (masksErr_raise .queueFull s).comp (masksErr_answer ..)
  have hroom : MasksErr (fun u => hostEnqueue ⟨a, cls, len, data, true, r⟩ (writeSlot r ResSlot.preset u)) s :=
    MasksErr.comp (f := writeSlot r ResSlot.preset) (.of_eq fun _ => rfl) (masksErr_hostEnqueue ..)
  exact ⟨_, .ite (p := fun u => enqrBadArg len r u = true) (fun _ => .rfl) (masksErr_refuseArg s)
    (.ite (p := fun u => isFull u = true) (fun _ => .rfl) hfull hroom), fun _ => rfl⟩

theorem eventMasksErr_setaddr (a : DevNo) (s : State) : EventMasksErr (.setaddr a) s := by
  by_cases ha : a = 0
  · subst ha
    exact ⟨refuseArg, masksErr_refuseArg s, fun _ => rfl⟩
  · have henqueue : MasksErr
        (fun u => engineEnqueue (bareEntry a s.cfg.clsFwver) (invalidateAll { u with target := a })) s :=
      MasksErr.comp (f := fun u => invalidateAll { u with target := a }) (.of_eq fun _ => rfl)
        (masksErr_engineEnqueue ..)
    exact ⟨_, henqueue, fun e => exec_setaddr_of_ne_zero (s := withErr e s) ha⟩

/-- RDREG of any register but `ERR` itself (R47). -/
theorem readReg_withErr {n : BitVec 4} (hn : n ≠ 7) (e : BitVec 6) (s : State) :
    readReg (withErr e s) n = readReg s n := by
  rcases opcode_cases n with
    rfl | rfl | rfl | rfl | rfl | rfl | rfl | rfl | rfl | rfl | rfl | rfl | rfl | rfl | rfl | rfl
  case inr.inr.inr.inr.inr.inr.inr.inl => exact absurd rfl hn
  all_goals rfl

theorem eventMasksErr_rdreg {n : BitVec 4} (hn : n ≠ 7) (s : State) : EventMasksErr (.rdreg n) s := by
  cases h : readReg s n with
  | some v =>
    exact ⟨_, masksErr_answer (.value v) s, fun e => exec_rdreg_of_some _ ((readReg_withErr hn e s).trans h)⟩
  | none => exact ⟨_, masksErr_refuseArg s, fun e => exec_rdreg_of_none _ ((readReg_withErr hn e s).trans h)⟩

theorem eventMasksErr_rdstat (k : BitVec 4) (s : State) : EventMasksErr (.rdstat k) s := by
  rcases lt_or_ge k.toNat 9 with hk | hk
  · exact ⟨_, masksErr_answer (.stat s.field[k.toNat].value s.field[k.toNat].valid) s, fun e =>
      exec_rdstat_of_lt (withErr e s) hk⟩
  · exact ⟨_, masksErr_refuseArg s, fun e => exec_rdstat_of_le (withErr e s) hk⟩

/-- Every event but CLRERR, RESET and RDREG 7. -/
theorem eventMasksErr (s : State) (hclr : eventOf i ≠ .clrerr) (hreset : i ≠ .reset) (hrd : i ≠ .rdreg 7)
    (hx : exec i s = .next t) : EventMasksErr i s := by
  cases i with
  | tick => exact ⟨_, (masksErr_countDown s).comp (masksErr_dispatch _), fun _ => rfl⟩
  | enq cls a len data => exact ⟨_, (masksErr_hostEnqueue _ s).refuseOr (lenReserved len), fun _ => rfl⟩
  | enqr cls a len data r => exact eventMasksErr_enqr cls a len data r s
  | setaddr a => exact eventMasksErr_setaddr a s
  | enum =>
    exact ⟨_, .comp (f := fun u => { u with pres := 0 }) (.of_eq fun _ => rfl)
      (masksErr_engineEnqueue (bareEntry 0 s.cfg.clsEnum) _), fun _ => rfl⟩
  | sweep b => exact ⟨fun u => answer .ok { u with sweepEn := b }, .of_eq fun _ => rfl, fun _ => rfl⟩
  | rdstat k => exact eventMasksErr_rdstat k s
  | rdpres => exact ⟨fun u => answer (.bitmap u.pres) u, .of_eq fun _ => rfl, fun _ => rfl⟩
  | rdres r =>
    exact ⟨_, .ite (p := fun u => u.cfg.r ≤ r.toNat) (fun _ => .rfl) (masksErr_refuseArg s)
      (masksErr_answer (.slot (readSlot s r).word) s), fun _ => rfl⟩
  | takeupd => exact ⟨fun u => answer (.bit u.updack) { u with updack := false }, .of_eq fun _ => rfl, fun _ => rfl⟩
  | rdreg n => exact eventMasksErr_rdreg (fun h => hrd (h ▸ rfl)) s
  | clrerr => exact absurd rfl hclr
  | reserved14 => cases hx
  | reset => exact absurd rfl hreset
  | txc => exact eventMasksErr_txc s
  | txcEnum => exact eventMasksErr_of_sentRow rfl s
  | txcUntagged => exact eventMasksErr_of_sentRow rfl s
  | txcTaggedLongDl => exact eventMasksErr_of_sentRow rfl s
  | txcTaggedLongSd => exact eventMasksErr_of_sentRow rfl s
  | txcTagged => exact eventMasksErr_of_sentRow rfl s
  | rxf => exact eventMasksErr_of_rxf rfl s
  | _ => exact eventMasksErr_of_rxf rfl s

/-- The mask of an event: what it sets in `ERR`, whatever `ERR` was. -/
theorem EventMasksErr.exists_mask (h : EventMasksErr i s) (hx : exec i s = .next t) :
    ∃ m, ∀ e, exec i (withErr e s) = .next (withErr (e ||| m) t) := by
  obtain ⟨f, ⟨m, hm⟩, hf⟩ := h
  have ht : t = f s := Host.Outcome.next.inj (hx.symm.trans (hf s.err))
  exact ⟨m, fun e => by rw [hf, hm, ht]⟩

/-- RDREG 7 leaves `ERR` as it is. -/
theorem exec_rdreg_err (hx : exec (.rdreg 7) s = .next t) : t.err = s.err := by
  cases hx
  rfl

theorem err_sticky (hclr : eventOf i ≠ .clrerr) (hreset : i ≠ .reset) (hx : exec i s = .next t) (b : Nat)
    (hb : s.err.getLsbD b = true) : t.err.getLsbD b = true := by
  by_cases hrd : i = .rdreg 7
  · subst hrd
    rwa [exec_rdreg_err hx]
  · obtain ⟨m, hm⟩ := (eventMasksErr s hclr hreset hrd hx).exists_mask hx
    have ht : t = withErr (s.err ||| m) t := Host.Outcome.next.inj (hx.symm.trans (hm s.err))
    rw [ht, withErr, BitVec.getLsbD_or, hb, Bool.true_or]

end

/-- Settles O53: every event works under a mask, but for CLRERR and RESET, which overwrite `ERR` without a look at
anything else of it, and RDREG 7, which returns it. -/
theorem errIsStickyAndObservationOnly : Obligations.ErrIsStickyAndObservationOnly := by
  intro s t i hx
  refine ⟨fun hclr hreset => err_sticky hclr (fun h => hreset (h ▸ rfl)) hx, fun hrd e => ?_⟩
  by_cases hreset : i = .reset
  · subst hreset
    cases hx
    exact ⟨0, rfl⟩
  by_cases hclr : eventOf i = .clrerr
  · cases i with
    | clrerr m =>
      cases hx
      exact ⟨e &&& ~~~m, rfl⟩
    | _ => cases hclr
  · obtain ⟨m, hm⟩ := (eventMasksErr s hclr hreset hrd hx).exists_mask hx
    exact ⟨e ||| m, hm e⟩

end Sys2Proof.Machine

/-! The host operations: the enqueues with room in the ring (R140 to R143), the refused operands (R230, R234), and
what the read operations return (R47, R105, R145 to R149). -/

namespace Sys2Proof.Machine

/-! ## Enqueues that find room -/

section

variable {s : State}

theorem push_of_room (hroom : isFull s = false) (e : QEntry) :
    push e s = some { s with q := s.q.set s.wr e, wr := (s.wr + 1) % s.cfg.n } := by
  rcases push_cases s e with ⟨hfull, -⟩ | ⟨-, hpush⟩
  · exact absurd (hfull.symm.trans hroom) nofun
  · exact hpush

theorem hostEnqueue_of_room (hroom : isFull s = false) (e : QEntry) :
    hostEnqueue e s = answer .ok (dispatch { s with q := s.q.set s.wr e, wr := (s.wr + 1) % s.cfg.n }) := by
  simp only [hostEnqueue, push_of_room hroom]

theorem engineEnqueue_of_room (hroom : isFull s = false) (e : QEntry) :
    engineEnqueue e s = answer .ok (dispatch { s with q := s.q.set s.wr e, wr := (s.wr + 1) % s.cfg.n }) := by
  simp only [engineEnqueue, push_of_room hroom]

end

/-- Settles O40: the operand test passes and the push finds room. -/
theorem enqStoresTheCommand : Obligations.EnqStoresTheCommand := by
  intro s cls a len data hlen hroom
  rw [exec_enq_of_le hlen, hostEnqueue_of_room ((isFull_eq_false s).2 hroom)]

/-- Settles O41. The preset writes a slot, so the push after it finds the room that the operand test found. -/
theorem enqrPresetsItsSlot : Obligations.EnqrPresetsItsSlot := by
  intro s cls a len data r hlen hr hfree hspace
  have hroom : isFull s = false := (isFull_eq_false s).2 hspace
  rw [exec_enqr_of_room s (enqrBadArg_of_hostOwnsSlot hfree hr hlen) hroom,
    hostEnqueue_of_room (s := writeSlot r ResSlot.preset s) hroom]
  rfl

/-- Settles O42: what SETADDR does before the push takes no room in the ring. -/
theorem setaddrInvalidatesAndQueries : Obligations.SetaddrInvalidatesAndQueries := by
  intro s a ha hspace
  have hroom : isFull (invalidateAll { s with target := a }) = false := (isFull_eq_false _).2 hspace
  rw [exec_setaddr_of_ne_zero ha, engineEnqueue_of_room hroom, invalidateAll_eq]
  rfl

/-- Settles O43: neither does clearing the bitmap. -/
theorem enumClearsTheBitmap : Obligations.EnumClearsTheBitmap := by
  intro s hspace
  have hroom : isFull { s with pres := 0 } = false := (isFull_eq_false _).2 hspace
  rw [exec_enum, engineEnqueue_of_room hroom]
  rfl

/-! ## Refused operands -/

theorem regNumber_cases_of_lt : ∀ n : BitVec 4, 8 < n.toNat →
    n = 9 ∨ n = 10 ∨ n = 11 ∨ n = 12 ∨ n = 13 ∨ n = 14 ∨ n = 15 := by decide

theorem readReg_of_lt (s : State) {n : BitVec 4} (h : 8 < n.toNat) : readReg s n = none := by
  rcases regNumber_cases_of_lt n h with rfl | rfl | rfl | rfl | rfl | rfl | rfl <;> rfl

/-- Settles O45: each operation tests its operand before anything else, and all refuse in the same way. -/
theorem badArgChangesNothingElse : Obligations.BadArgChangesNothingElse := by
  intro s t
  refine ⟨fun cls a len data hlen => ?enq, fun cls a len data r harg => ?enqr, ?setaddr, fun k hk => ?rdstat,
    fun r hr => ?rdres, fun n hn => ?rdreg⟩
  case enq => exact exec_enq_of_lt s hlen cls a data
  case enqr => exact exec_enqr_of_badArg s ((enqrBadArg_eq_true s).2 harg) cls a data
  case setaddr => exact exec_setaddr_zero s
  case rdstat => exact exec_rdstat_of_le s hk
  case rdres => exact exec_rdres_of_le s hr
  case rdreg => exact exec_rdreg_of_none s (readReg_of_lt s hn)

/-! ## SWEEP and the read operations -/

/-- Settles O46: SWEEP has no operand to refuse. -/
theorem sweepWritesItsBit : Obligations.SweepWritesItsBit := exec_sweep

/-! ### The word of a result slot -/

section

variable (r : ResSlot)

theorem data_of_word : r.word.extractLsb' 0 64 = r.data := BitVec.extractLsb'_append_eq_right

/-- The bits above `DATA64` are those of `ST ‖ LEN`. -/
theorem extractLsb'_word_of_le {start : Nat} (h : 64 ≤ start) (len : Nat) :
    r.word.extractLsb' start len = (r.st.code ++ r.len).extractLsb' (start - 64) len :=
  BitVec.extractLsb'_append_eq_of_le h

theorem len_of_word : r.word.extractLsb' 64 4 = r.len :=
  (extractLsb'_word_of_le r (by omega) 4).trans BitVec.extractLsb'_append_eq_right

theorem st_of_word : r.word.extractLsb' 68 2 = r.st.code :=
  (extractLsb'_word_of_le r (by omega) 2).trans BitVec.extractLsb'_append_eq_left

end

/-- Settles O47: the slot's word has its three parts where R105 puts them. -/
theorem readOperationsReturnTheirState : Obligations.ReadOperationsReturnTheirState := by
  intro s
  refine ⟨fun k => ?rdstat, exec_rdpres s, fun r hr => ⟨(readSlot s r).word, exec_rdres_of_lt s hr, len_of_word _,
    data_of_word _, ?rdres⟩⟩
  case rdstat =>
    have hk : (BitVec.ofNat 4 k.val).toNat = k.val := Nat.mod_eq_of_lt (by omega)
    have h := exec_rdstat_of_lt s (k := BitVec.ofNat 4 k.val) (by omega)
    simp only [hk] at h
    exact h
  case rdres =>
    rw [st_of_word]
    cases (readSlot s r).st <;> rfl

/-! ### The registers -/

/-- A flag as a 32-bit word. -/
def bitWord (b : Bool) : BitVec 32 := if b then 1 else 0

theorem bitWord_eq_ofNat (b : Bool) : BitVec.ofNat 32 b.toNat = bitWord b := by cases b <;> rfl

/-- The five bits of `FLAGS` do not overlap, so their sum is their disjunction. -/
theorem ofNat_flags : ∀ a b c d e : Bool,
    BitVec.ofNat 32 (a.toNat + 2 * b.toNat + 4 * c.toNat + 8 * d.toNat + 16 * e.toNat) =
      bitWord a ||| bitWord b <<< 1 ||| bitWord c <<< 2 ||| bitWord d <<< 3 ||| bitWord e <<< 4 := by
  decide

theorem flagsWord_eq (s : State) :
    flagsWord s = bitWord s.updack ||| bitWord s.txslot.v <<< 1 ||| bitWord (s.state = .idle ∧ s.cnt ≠ 0) <<< 2 |||
      bitWord (s.wr = s.rd) <<< 3 ||| bitWord ((s.wr + 1) % s.cfg.n = s.rd) <<< 4 := by
  have hsettling : settling s = decide (s.state = .idle ∧ s.cnt ≠ 0) := Bool.eq_iff_iff.2 (by simp)
  have hempty : isEmpty s = decide (s.wr = s.rd) := Bool.eq_iff_iff.2 (by simp)
  have hfull : isFull s = decide ((s.wr + 1) % s.cfg.n = s.rd) := Bool.eq_iff_iff.2 (by simp)
  rw [flagsWord, ofNat_flags, hsettling, hempty, hfull]

/-- Settles O49: each number has its register; only `FLAGS` is put together from several components. -/
theorem rdregReadsTheRegisters : Obligations.RdregReadsTheRegisters := by
  intro s bit gives
  have gives_of : ∀ {n : BitVec 4} {v w : BitVec 32}, readReg s n = some v → v = w → gives n w :=
    fun h hvw => hvw ▸ exec_rdreg_of_some s h
  refine ⟨gives_of rfl ?state, gives_of rfl rfl, gives_of rfl rfl, gives_of rfl rfl, gives_of rfl rfl,
    gives_of rfl ?sweepEn, gives_of rfl ?flags, gives_of rfl rfl, gives_of rfl rfl⟩
  case state => cases s.state <;> rfl
  case sweepEn => exact bitWord_eq_ofNat s.sweepEn
  case flags => exact flagsWord_eq s

end Sys2Proof.Machine
